-- ==== Sys2Proof/Word.lean ====
section
/-! DEFINITION. Word.lean: the 32-bit word of the register window and of the command register. -/

namespace Sys2Proof

/-- The data of one host transaction, one command word, or one register padded with zeros (20_memory.md R81, R86). -/
abbrev Word := BitVec 32

end Sys2Proof
end

