-- ==== Sys2Proof/Machine/Bits.lean ====
section
/-! DEFINITION. Machine/Bits.lean: the pseudocode primitives of 00_scope.md R10 and R11 that are no register access. -/

namespace Sys2Proof.Machine
open Sys2Proof

/-- Exclusive or of f 0, ..., f (n-1). -/
def xorUpTo : Nat → (Nat → Bool) → Bool
  | 0, _ => false
  | n + 1, f => xorUpTo n f ^^ f n

/-- Sum of f 0, ..., f (n-1). -/
def sumUpTo : Nat → (Nat → Int) → Int
  | 0, _ => 0
  | n + 1, f => sumUpTo n f + f n

/-- Do all of f 0, ..., f (n-1) hold? -/
def allUpTo : Nat → (Nat → Bool) → Bool
  | 0, _ => true
  | n + 1, f => allUpTo n f && f n

/-- The word whose bit i is f i for i < n and 0 above. -/
def wordOfBits : Nat → (Nat → Bool) → Word
  | 0, _ => 0
  | n + 1, f => wordOfBits n f ||| (if f n then 1#32 <<< n else 0#32)

/-- v with bit i set. -/
def setBit (v : Word) (i : Nat) : Word := v ||| 1#32 <<< i

/-- `v[k-1:0]`: the low k bits of v, zeros above (R10). -/
def lowBits (k : Nat) (v : Word) : Word := BitVec.ofNat 32 (v.toNat % 2 ^ k)

/-- `sext(v[w-1:0], w)` as an integer (R11). -/
def signedLow (w : Nat) (v : Word) : Int :=
  if v.toNat % 2 ^ w < 2 ^ (w - 1) then (v.toNat % 2 ^ w : Int) else (v.toNat % 2 ^ w : Int) - 2 ^ w

/-- `bit_j(w, k)`: bit j of the k-bit information word w counted from the most significant (R11, 30_encoding.md R115). -/
def bitOfWord (j w k : Nat) : Bool := w.testBit (k - 1 - j)

/-- `parity(v)`: the exclusive or of all bits of v (R11). -/
def parity (v : Word) : Bool := xorUpTo 32 v.getLsbD

/-- `rev_K(w)`: the low k bits of w in reverse order (41_engine_build_encode.md R166). -/
def revLow (k w : Nat) : Word := wordOfBits k (fun j => bitOfWord j w k)

end Sys2Proof.Machine
end

