-- ==== Sys2Proof/Syntax.lean ====
section
/-! DEFINITION. Syntax.lean: the commands (one constructor per row of spec/opcode_table.json) and the host's transactions. -/

namespace Sys2Proof

/-- Command set 1 and the 30 rows into which 30_encoding.md R111 cuts the reserved words. A reserved row's constructor
carries the bits its mask leaves free, so that no bit of a command word is lost; no meaning looks at them (R163). -/
inductive Instr where
  /-- Word 0x00000000, 41_engine_build_encode.md R162. -/
  | nop
  /-- Word 0x00000001, 41_engine_build_encode.md R165. -/
  | build
  /-- Word 0x00000002, 41_engine_build_encode.md R169. -/
  | encode
  /-- Word 0x00000003, 42_engine_decode.md R182. -/
  | decode
  /-- Word 0x00000004, 43_simulation.md R204. -/
  | trial
  /-- Word 0x00000005, 43_simulation.md R205. -/
  | sweep
  /-- Words 0x6 and 0x7; `low` is bit 0. -/
  | illOpc6_7 (low : BitVec 1)
  /-- Words 0x8 to 0xF; `low` is bits 2:0. -/
  | illOpc8_15 (low : BitVec 3)
  /-- From here on `illTop<p>`: the highest set bit is bit p, and `low` is bits p-1:0. -/
  | illTop4 (low : BitVec 4)
  | illTop5 (low : BitVec 5)
  | illTop6 (low : BitVec 6)
  | illTop7 (low : BitVec 7)
  | illTop8 (low : BitVec 8)
  | illTop9 (low : BitVec 9)
  | illTop10 (low : BitVec 10)
  | illTop11 (low : BitVec 11)
  | illTop12 (low : BitVec 12)
  | illTop13 (low : BitVec 13)
  | illTop14 (low : BitVec 14)
  | illTop15 (low : BitVec 15)
  | illTop16 (low : BitVec 16)
  | illTop17 (low : BitVec 17)
  | illTop18 (low : BitVec 18)
  | illTop19 (low : BitVec 19)
  | illTop20 (low : BitVec 20)
  | illTop21 (low : BitVec 21)
  | illTop22 (low : BitVec 22)
  | illTop23 (low : BitVec 23)
  | illTop24 (low : BitVec 24)
  | illTop25 (low : BitVec 25)
  | illTop26 (low : BitVec 26)
  | illTop27 (low : BitVec 27)
  | illTop28 (low : BitVec 28)
  | illTop29 (low : BitVec 29)
  | illTop30 (low : BitVec 30)
  | illTop31 (low : BitVec 31)
  deriving DecidableEq, Repr

/-- A host transaction (20_memory.md R81, 30_encoding.md R114): byte offset from the window's base, size in bytes, data.
Offset and size are naturals so that the transactions the core refuses (R83, R84) can be written down (log 18). -/
inductive Txn where
  | read  (offset size : Nat)
  | write (offset size : Nat) (data : Word)
  deriving DecidableEq, Repr

end Sys2Proof
end

