-- ==== Sys2Proof/Decode.lean ====
section
/-! DEFINITION. Decode.lean: the command word's decoder, total on all 2^32 words (30_encoding.md R110, R111), and the
encoder written from the same table. No word is rejected: the spec leaves no encoding undefined, and a command is one
32-bit word taken whole from the data of the write to CMD, so there is no byte order and no length to get wrong
(30_encoding.md R113, 20_memory.md R85, R94). -/

namespace Sys2Proof

/-- The command or reserved row of a command word. Words 0 to 5 are the commands; a reserved word belongs to OPC 6 to 7,
OPC 8 to 15, or the position of its highest set bit (30_encoding.md R110, R111). -/
def decode (w : Word) : Instr :=
  if w.toNat = 0 then .nop
  else if w.toNat = 1 then .build
  else if w.toNat = 2 then .encode
  else if w.toNat = 3 then .decode
  else if w.toNat = 4 then .trial
  else if w.toNat = 5 then .sweep
  else if w.toNat < 8 then .illOpc6_7 (w.setWidth 1)
  else if w.toNat < 16 then .illOpc8_15 (w.setWidth 3)
  else if w.toNat < 2 ^ 5 then .illTop4 (w.setWidth 4)
  else if w.toNat < 2 ^ 6 then .illTop5 (w.setWidth 5)
  else if w.toNat < 2 ^ 7 then .illTop6 (w.setWidth 6)
  else if w.toNat < 2 ^ 8 then .illTop7 (w.setWidth 7)
  else if w.toNat < 2 ^ 9 then .illTop8 (w.setWidth 8)
  else if w.toNat < 2 ^ 10 then .illTop9 (w.setWidth 9)
  else if w.toNat < 2 ^ 11 then .illTop10 (w.setWidth 10)
  else if w.toNat < 2 ^ 12 then .illTop11 (w.setWidth 11)
  else if w.toNat < 2 ^ 13 then .illTop12 (w.setWidth 12)
  else if w.toNat < 2 ^ 14 then .illTop13 (w.setWidth 13)
  else if w.toNat < 2 ^ 15 then .illTop14 (w.setWidth 14)
  else if w.toNat < 2 ^ 16 then .illTop15 (w.setWidth 15)
  else if w.toNat < 2 ^ 17 then .illTop16 (w.setWidth 16)
  else if w.toNat < 2 ^ 18 then .illTop17 (w.setWidth 17)
  else if w.toNat < 2 ^ 19 then .illTop18 (w.setWidth 18)
  else if w.toNat < 2 ^ 20 then .illTop19 (w.setWidth 19)
  else if w.toNat < 2 ^ 21 then .illTop20 (w.setWidth 20)
  else if w.toNat < 2 ^ 22 then .illTop21 (w.setWidth 21)
  else if w.toNat < 2 ^ 23 then .illTop22 (w.setWidth 22)
  else if w.toNat < 2 ^ 24 then .illTop23 (w.setWidth 23)
  else if w.toNat < 2 ^ 25 then .illTop24 (w.setWidth 24)
  else if w.toNat < 2 ^ 26 then .illTop25 (w.setWidth 25)
  else if w.toNat < 2 ^ 27 then .illTop26 (w.setWidth 26)
  else if w.toNat < 2 ^ 28 then .illTop27 (w.setWidth 27)
  else if w.toNat < 2 ^ 29 then .illTop28 (w.setWidth 28)
  else if w.toNat < 2 ^ 30 then .illTop29 (w.setWidth 29)
  else if w.toNat < 2 ^ 31 then .illTop30 (w.setWidth 30)
  else .illTop31 (w.setWidth 31)

/-- The word whose bits p-1:0 are `low`, whose bit p is 1 and whose higher bits are 0: a reserved word of the row that is
named after its highest set bit. -/
def topWord (p : Nat) (low : BitVec p) : Word := 1#32 <<< p ||| low.setWidth 32

/-- The command word of an instruction (30_encoding.md R110, R111). -/
def encode : Instr → Word
  | .nop => 0#32
  | .build => 1#32
  | .encode => 2#32
  | .decode => 3#32
  | .trial => 4#32
  | .sweep => 5#32
  | .illOpc6_7 low => 6#32 ||| low.setWidth 32
  | .illOpc8_15 low => topWord 3 low
  | .illTop4 low => topWord 4 low
  | .illTop5 low => topWord 5 low
  | .illTop6 low => topWord 6 low
  | .illTop7 low => topWord 7 low
  | .illTop8 low => topWord 8 low
  | .illTop9 low => topWord 9 low
  | .illTop10 low => topWord 10 low
  | .illTop11 low => topWord 11 low
  | .illTop12 low => topWord 12 low
  | .illTop13 low => topWord 13 low
  | .illTop14 low => topWord 14 low
  | .illTop15 low => topWord 15 low
  | .illTop16 low => topWord 16 low
  | .illTop17 low => topWord 17 low
  | .illTop18 low => topWord 18 low
  | .illTop19 low => topWord 19 low
  | .illTop20 low => topWord 20 low
  | .illTop21 low => topWord 21 low
  | .illTop22 low => topWord 22 low
  | .illTop23 low => topWord 23 low
  | .illTop24 low => topWord 24 low
  | .illTop25 low => topWord 25 low
  | .illTop26 low => topWord 26 low
  | .illTop27 low => topWord 27 low
  | .illTop28 low => topWord 28 low
  | .illTop29 low => topWord 29 low
  | .illTop30 low => topWord 30 low
  | .illTop31 low => topWord 31 low

/-- One row of spec/opcode_table.json: a word w belongs to it when `w &&& mask = pattern`. -/
structure OpcodeRow where
  mnemonic : String
  pattern  : Word
  mask     : Word
  deriving DecidableEq, Repr

/-- The row of the opcode table an instruction belongs to, as the table writes it. -/
def opcodeRow : Instr → OpcodeRow
  | .nop => ⟨"NOP", 0x00000000#32, 0xFFFFFFFF#32⟩
  | .build => ⟨"BUILD", 0x00000001#32, 0xFFFFFFFF#32⟩
  | .encode => ⟨"ENCODE", 0x00000002#32, 0xFFFFFFFF#32⟩
  | .decode => ⟨"DECODE", 0x00000003#32, 0xFFFFFFFF#32⟩
  | .trial => ⟨"TRIAL", 0x00000004#32, 0xFFFFFFFF#32⟩
  | .sweep => ⟨"SWEEP", 0x00000005#32, 0xFFFFFFFF#32⟩
  | .illOpc6_7 _ => ⟨"ILLCMD.opc6_7", 0x00000006#32, 0xFFFFFFFE#32⟩
  | .illOpc8_15 _ => ⟨"ILLCMD.opc8_15", 0x00000008#32, 0xFFFFFFF8#32⟩
  | .illTop4 _ => ⟨"ILLCMD.top4", 0x00000010#32, 0xFFFFFFF0#32⟩
  | .illTop5 _ => ⟨"ILLCMD.top5", 0x00000020#32, 0xFFFFFFE0#32⟩
  | .illTop6 _ => ⟨"ILLCMD.top6", 0x00000040#32, 0xFFFFFFC0#32⟩
  | .illTop7 _ => ⟨"ILLCMD.top7", 0x00000080#32, 0xFFFFFF80#32⟩
  | .illTop8 _ => ⟨"ILLCMD.top8", 0x00000100#32, 0xFFFFFF00#32⟩
  | .illTop9 _ => ⟨"ILLCMD.top9", 0x00000200#32, 0xFFFFFE00#32⟩
  | .illTop10 _ => ⟨"ILLCMD.top10", 0x00000400#32, 0xFFFFFC00#32⟩
  | .illTop11 _ => ⟨"ILLCMD.top11", 0x00000800#32, 0xFFFFF800#32⟩
  | .illTop12 _ => ⟨"ILLCMD.top12", 0x00001000#32, 0xFFFFF000#32⟩
  | .illTop13 _ => ⟨"ILLCMD.top13", 0x00002000#32, 0xFFFFE000#32⟩
  | .illTop14 _ => ⟨"ILLCMD.top14", 0x00004000#32, 0xFFFFC000#32⟩
  | .illTop15 _ => ⟨"ILLCMD.top15", 0x00008000#32, 0xFFFF8000#32⟩
  | .illTop16 _ => ⟨"ILLCMD.top16", 0x00010000#32, 0xFFFF0000#32⟩
  | .illTop17 _ => ⟨"ILLCMD.top17", 0x00020000#32, 0xFFFE0000#32⟩
  | .illTop18 _ => ⟨"ILLCMD.top18", 0x00040000#32, 0xFFFC0000#32⟩
  | .illTop19 _ => ⟨"ILLCMD.top19", 0x00080000#32, 0xFFF80000#32⟩
  | .illTop20 _ => ⟨"ILLCMD.top20", 0x00100000#32, 0xFFF00000#32⟩
  | .illTop21 _ => ⟨"ILLCMD.top21", 0x00200000#32, 0xFFE00000#32⟩
  | .illTop22 _ => ⟨"ILLCMD.top22", 0x00400000#32, 0xFFC00000#32⟩
  | .illTop23 _ => ⟨"ILLCMD.top23", 0x00800000#32, 0xFF800000#32⟩
  | .illTop24 _ => ⟨"ILLCMD.top24", 0x01000000#32, 0xFF000000#32⟩
  | .illTop25 _ => ⟨"ILLCMD.top25", 0x02000000#32, 0xFE000000#32⟩
  | .illTop26 _ => ⟨"ILLCMD.top26", 0x04000000#32, 0xFC000000#32⟩
  | .illTop27 _ => ⟨"ILLCMD.top27", 0x08000000#32, 0xF8000000#32⟩
  | .illTop28 _ => ⟨"ILLCMD.top28", 0x10000000#32, 0xF0000000#32⟩
  | .illTop29 _ => ⟨"ILLCMD.top29", 0x20000000#32, 0xE0000000#32⟩
  | .illTop30 _ => ⟨"ILLCMD.top30", 0x40000000#32, 0xC0000000#32⟩
  | .illTop31 _ => ⟨"ILLCMD.top31", 0x80000000#32, 0x80000000#32⟩

/-- Does word w belong to the row? -/
def OpcodeRow.holds (r : OpcodeRow) (w : Word) : Bool := decide (w &&& r.mask = r.pattern)

/-- The instruction word of `nbits` bits whose bits are w; the bits above are 0. -/
def tableWord (nbits w : Nat) : Word := BitVec.ofNat 32 (w % 2 ^ nbits)

/-- What the decoder reads from the word the opcode table numbers as w. -/
def decodeTableWord (nbits w : Nat) : Option Instr := some (decode (tableWord nbits w))

end Sys2Proof
end

