-- ==== Sys2Proof/Config.lean ====
section
/-! DEFINITION. Config.lean: the parameters of one instance of the core (00_scope.md R6) and the free values.

A free value is an opaque constant: no proof can see which value it has, so what is proved holds for every one.
`State.freeCount` gives each use an argument of its own. -/

namespace Sys2Proof

/-- The parameters of 00_scope.md R6, fixed for one instance. The sixth, T_CLK, has no default and enters no
step: it is `ClockPeriod`. -/
structure Params where
  nMax      : Nat
  kMax      : Nat
  sampleW   : Nat
  frac      : Nat
  resqDepth : Nat
  deriving DecidableEq, Repr

/-- The defaults of 00_scope.md R6. -/
def Params.reference : Params where
  nMax      := 20
  kMax      := 13
  sampleW   := 16
  frac      := 10
  resqDepth := 4

/-- The constraints of 00_scope.md R6 on these five; that on T_CLK stands in `ClockPeriod`. -/
def Params.wellFormed (p : Params) : Bool :=
  decide (1 ≤ p.nMax ∧ p.nMax ≤ 32) && decide (1 ≤ p.kMax ∧ p.kMax ≤ 24) &&
  decide (4 ≤ p.sampleW ∧ p.sampleW ≤ 32) && decide (1 ≤ p.frac ∧ p.frac ≤ p.sampleW - 2) && decide (1 ≤ p.resqDepth)

/-- T_CLK of 00_scope.md R6, the clock period in seconds, with its constraint T_CLK > 0. The spec gives it no default, so
it is an argument of the one view that uses it (Machine/Views.lean, log 16). -/
structure ClockPeriod where
  seconds  : Rat
  positive : 0 < seconds
  deriving DecidableEq, Repr

/-- What a decode leaves in DEC_CYCLES: `any` of 43_simulation.md R212. Free value, log 6. -/
opaque Config.freeCycles : Nat → Word

/-- The stored bits of row i of GROW after a shape write: unspecified, 40_container_access.md R142. Free value, log 7. -/
opaque Config.unfilledRow : Nat → Nat → Word

/-- The stored bits of RX[j] after a shape write: unspecified, 40_container_access.md R142. Free value, log 7. -/
opaque Config.unfilledSample : Nat → Nat → Word

/-- What RES_LEVEL reads where the queue's length does not fit its 32 bits: 00_scope.md R6 gives RESQ_DEPTH no upper bound
and 10_state.md R51 gives no value there. Free value, log 19. -/
opaque Config.longQueueLevel : Nat → Word

end Sys2Proof
end

