-- ==== Sys2Proof/Machine/State.lean ====
section
/-! DEFINITION. Machine/State.lean: everything 10_state.md R20 gives the core, as plain data, with the coming moves of
the two other agents and what the host was answered. -/

namespace Sys2Proof.Machine
open Sys2Proof

/-- The codeword table's memory: (row, codeword) pairs, rows strictly rising, no pair holding what an unlisted row reads
as (10_state.md R49). The unit is a row, the smallest thing the core addresses. -/
abbrev Memory := List (Nat × Word)

/-- One row of the result queue (30_encoding.md R122). -/
structure ResultRow where
  sigma  : Word
  errors : Word
  trials : Word
  cycles : Word
  deriving DecidableEq, Repr

/-- What the random source is asked for (30_encoding.md R125): `bits` is the k of the request. -/
inductive DrawKind where
  | uniform (bits : Nat)
  | normal
  deriving DecidableEq, Repr

/-- The pending draw (10_state.md R62): none, one request outstanding, or its answer waiting to be taken. -/
inductive Draw where
  | none
  | requested (kind : DrawKind)
  | answered (data : Word)
  deriving DecidableEq, Repr

/-- PHASE (10_state.md R60). The spec's RUN(ILLEGAL) is `run i` for i a reserved row. -/
inductive Phase where
  | idle
  | run (command : Instr)
  deriving DecidableEq, Repr

/-- Where the sequencer stands within a running command (10_state.md R60; 43_simulation.md R203, R206, R207). -/
inductive Pos where
  /-- the start checks come next -/
  | start
  /-- the request for the information word comes next -/
  | drawWord
  /-- holding for the word, then taking it -/
  | takeWord
  /-- the request for the noise of coordinate j comes next -/
  | drawNoise (j : Nat)
  /-- holding for the noise of coordinate j, then taking it -/
  | takeNoise (j : Nat)
  /-- the decode step comes next -/
  | judge
  /-- a level has finished: the row push comes next, or the row hold -/
  | push
  /-- the row is pushed: the next level, or the end, comes next -/
  | nextLevel
  deriving DecidableEq, Repr

/-- The scan registers (10_state.md R61; 42_engine_decode.md R183). -/
structure Scan where
  candidate : Nat
  best      : Nat
  bestScore : Int
  deriving DecidableEq, Repr

/-- The response of a host transaction (20_memory.md R81). -/
inductive Resp where
  | okay
  | error
  deriving DecidableEq, Repr

/-- What a transaction hands back: the response and, for a read, the data (0 with ERROR, R81; 0 for a write). -/
structure Response where
  resp : Resp
  data : Word
  deriving DecidableEq, Repr

/-- One move of the interleaving (20_memory.md R90): which agent acts, and with what. -/
inductive Move where
  /-- a host transaction -/
  | host (t : Txn)
  /-- the random source answers (ignored where no request is outstanding) -/
  | answer (data : Word)
  /-- the sequencer takes its next step -/
  | sequencer
  /-- the reset input is asserted (70_reset_and_hazards.md R270) -/
  | reset
  deriving DecidableEq, Repr

/-- The state. Each field's rule and reset value stand in INVENTORY.md under State. -/
structure State where
  /-- the instance's parameters, constant (R28, 00_scope.md R6) -/
  cfg        : Params
  busy       : Bool
  done       : Bool
  tableValid : Bool
  err        : BitVec 4
  gRows      : BitVec 6
  gCols      : BitVec 5
  k          : BitVec 5
  /-- GROW[i] is entry i -/
  grow       : List Word
  gValid     : Word
  word       : Word
  cw         : Word
  decWord    : Word
  trialErr   : Bool
  /-- RX[j] is entry j, sign-extended to 32 bits -/
  rx         : List Word
  rxValid    : Word
  sigma      : Word
  sigmaStart : Word
  sigmaEnd   : Word
  sigmaStep  : Word
  trials     : Word
  errCount   : Word
  trialCount : Word
  decCycles  : Word
  cwtIndex   : Word
  cwt        : Memory
  /-- oldest row first -/
  resq       : List ResultRow
  phase      : Phase
  pos        : Pos
  /-- the level s of the sweep's loop, an unbounded integer -/
  level      : Nat
  scan       : Scan
  draw       : Draw
  /-- the model's own: the coming moves; where the list is empty the sequencer moves (log 8) -/
  inputs     : List Move
  /-- the model's own: what the host's transactions were answered, oldest first (log 9) -/
  responses  : List Response
  /-- the model's own: how many free values were used (log 6, log 7) -/
  freeCount  : Nat
  deriving DecidableEq, Repr

/-- No step of this core stops the machine: a failing command completes with an error code and a failing transaction is
answered ERROR (60_exceptions.md R244, R246), and a hold is a step that changes nothing. So there is no fault to name. -/
inductive Fault where
  deriving DecidableEq, Repr

/-- Why a step has no meaning. -/
inductive Refusal where
  /-- Raised by an arm of exec whose instruction has no meaning yet; no arm does. Safe: the model stops. -/
  | notModelled (mnemonic : String)
  deriving DecidableEq, Repr

/-- What a meaning answers. -/
abbrev Result := Host.Outcome State Fault Refusal

/-- The state of 70_reset_and_hazards.md R271 for an instance with parameters p. GROW, RX and CWT are unspecified there;
the zeros are the model's (log 2, log 3), as are those of `scan`, `pos` and `level` (log 4, log 5). -/
def State.resetFor (p : Params) : State where
  cfg        := p
  busy       := false
  done       := false
  tableValid := false
  err        := 0
  gRows      := 0
  gCols      := 0
  k          := 0
  grow       := List.replicate p.nMax 0
  gValid     := 0
  word       := 0
  cw         := 0
  decWord    := 0
  trialErr   := false
  rx         := List.replicate p.nMax 0
  rxValid    := 0
  sigma      := 0
  sigmaStart := 0
  sigmaEnd   := 0
  sigmaStep  := 0
  trials     := 0
  errCount   := 0
  trialCount := 0
  decCycles  := 0
  cwtIndex   := 0
  cwt        := []
  resq       := []
  phase      := .idle
  pos        := .start
  level      := 0
  scan       := ⟨0, 0, 0⟩
  draw       := .none
  inputs     := []
  responses  := []
  freeCount  := 0

/-- The machine right after reset, with the reference parameters of 00_scope.md R6 (log 1). -/
def State.reset : State := State.resetFor Params.reference

end Sys2Proof.Machine
end

