-- ==== Sys2Proof/Machine/Ops.lean ====
section
/-! DEFINITION. Machine/Ops.lean: the named operations over the stores and registers: the codeword table's memory, an
entry of a register file, the start and the completion of a command, the error entry, the draw port, the emptying of the
stores, the result queue and reset. -/

namespace Sys2Proof.Machine
open Sys2Proof

/-- What a row of CWT that nothing has written reads as. The spec gives no value and lets no rule read it
(10_state.md R49); 0 is the model's (log 3). -/
def unlistedRow : Word := 0

/-- Row i of CWT. -/
def Memory.readRow : Memory → Nat → Word
  | [], _ => unlistedRow
  | (b, x) :: m, i => if b = i then x else Memory.readRow m i

/-- CWT with row i holding v, in canonical form. -/
def Memory.writeRow : Memory → Nat → Word → Memory
  | [], i, v => if v = unlistedRow then [] else [(i, v)]
  | (b, x) :: m, i, v =>
    if i < b then (if v = unlistedRow then (b, x) :: m else (i, v) :: (b, x) :: m)
    else if i = b then (if v = unlistedRow then m else (i, v) :: m)
    else (b, x) :: Memory.writeRow m i v

/-- CWT with rows 0 to n-1 holding f 0, ..., f (n-1). -/
def Memory.fillRows (f : Nat → Word) : Nat → Memory → Memory
  | 0, m => m
  | n + 1, m => (Memory.fillRows f n m).writeRow n (f n)

/-- The canonical form: rows strictly rising, none holding what an unlisted row reads as. -/
def Memory.wf : Memory → Bool
  | [] => true
  | (b, x) :: m => decide (x ≠ unlistedRow) && m.all (fun c => decide (b < c.1)) && Memory.wf m

/-- Entry i of a register file (0 past its end; no access of the window reaches there, 20_memory.md R83). -/
def entryAt (file : List Word) (i : Nat) : Word := file.getD i 0

/-- The command error causes (60_exceptions.md R240). Code 3, SHAPE, is reserved and never raised (R243). -/
inductive CmdError where
  | config
  | range
  | noEngine
  | illCmd
  | uninit
  deriving DecidableEq, Repr

/-- The code of a command error (60_exceptions.md R240). -/
def cmdErrorCode : CmdError → BitVec 4
  | .config => 1
  | .range => 2
  | .noEngine => 4
  | .illCmd => 5
  | .uninit => 6

/-- The completion step `complete(code)` (41_engine_build_encode.md R161). -/
def complete (code : BitVec 4) (s : State) : State :=
  { s with err := code, done := true, busy := false, phase := .idle }

/-- `raise CmdError(code)`, the entry of a command error (60_exceptions.md R244): the completion step with that code. -/
def raiseCmdError (e : CmdError) (s : State) : State := complete (cmdErrorCode e) s

/-- An accepted write of word w to CMD (41_engine_build_encode.md R160). It is also the return from an error: it clears
ERR and DONE (60_exceptions.md R245). -/
def startCommand (w : Word) (s : State) : State :=
  { s with
    done := false, err := 0, busy := true, phase := .run (decode w), pos := .start,
    tableValid := if decode w = .build then false else s.tableValid }

/-- s where the next move is the sequencer's. -/
def giveTurn (s : State) : State :=
  { s with inputs := match s.inputs with
      | [] => []
      | m :: rest => .sequencer :: m :: rest }

/-- s as it stands after command word w was accepted, with the sequencer's move next: the very next step runs the
command (log 14). -/
def loadCommand (w : Word) (s : State) : State := giveTurn (startCommand w s)

/-- One request to the random source (30_encoding.md R125); the sequencer goes on at `next`. -/
def requestDraw (kind : DrawKind) (next : Pos) (s : State) : State :=
  { s with draw := .requested kind, pos := next }

/-- The random source's answer arrives; without an outstanding request it is ignored, which 70_reset_and_hazards.md R272
states for an answer to a draw that a reset abandoned. DESIGN CHOICE (log 10): the port carries no tag (30_encoding.md
R125), so every answer that comes while a request is outstanding is that request's, also where an earlier request was
abandoned by a reset; and an answer that nothing asked for is ignored with or without a reset before it. -/
def receiveAnswer (d : Word) (s : State) : State :=
  match s.draw with
  | .requested _ => { s with draw := .answered d }
  | _ => s

/-- The side effects of a shape write (40_container_access.md R142): every row and sample becomes unfilled, the stored
bits of GROW and RX unspecified (free values, log 7), and the engine ends. -/
def emptyStores (s : State) : State :=
  { s with
    gValid := 0, rxValid := 0, tableValid := false,
    grow := (List.range s.cfg.nMax).map (fun i => lowBits s.cfg.kMax (Config.unfilledRow s.freeCount i)),
    rx := (List.range s.cfg.nMax).map
      (fun j => BitVec.ofInt 32 (signedLow s.cfg.sampleW (Config.unfilledSample s.freeCount j))),
    freeCount := s.freeCount + 1 }

/-- Row r at the tail of the result queue (43_simulation.md R207). -/
def appendRow (r : ResultRow) (s : State) : State := { s with resq := s.resq ++ [r] }

/-- The head row removed; an empty queue stays empty (43_simulation.md R208). -/
def popRow (s : State) : State := { s with resq := s.resq.tail }

/-- The head row, or the zeros an empty queue reads as (10_state.md R51). -/
def headRow (s : State) : ResultRow := s.resq.headD ⟨0, 0, 0, 0⟩

/-- RES_LEVEL: the queue's length (10_state.md R51). DESIGN CHOICE (log 19): where the length does not fit 32 bits the
spec gives no value, and a free value is read. -/
def queueLevel (s : State) : Word :=
  if s.resq.length < 2 ^ 32 then BitVec.ofNat 32 s.resq.length else Config.longQueueLevel s.resq.length

/-- Reset (70_reset_and_hazards.md R270 to R272): the core enters the reset state; a pending draw is abandoned and the
queue is lost. The parameters, the moves still to come, the host's record and the free-value counter are not the core's (log 11). -/
def resetCore (s : State) : State :=
  { State.resetFor s.cfg with inputs := s.inputs, responses := s.responses, freeCount := s.freeCount }

end Sys2Proof.Machine
end

