-- ==== Sys2Proof/Machine/Flags.lean ====
section
/-! DEFINITION. Machine/Flags.lean: the computed flags, the words STATUS and PARAM read as, and the tests of the valid
bits (10_state.md R22 to R28, R34, R40). -/

namespace Sys2Proof.Machine
open Sys2Proof

/-- STATUS.ROW_AVAIL (R26). -/
def rowAvail (s : State) : Bool := decide (1 ≤ s.resq.length)

/-- STATUS.ROW_HOLD (R26): a SWEEP has finished a level and the queue is full. -/
def rowHold (s : State) : Bool :=
  s.busy && decide (s.phase = .run .sweep) && decide (s.pos = .push) && decide (s.resq.length = s.cfg.resqDepth)

/-- STATUS as the host reads it (R22): BUSY bit 0, DONE 1, TABLE_VALID 2, ROW_AVAIL 3, ROW_HOLD 4, ERR 11:8. -/
def statusWord (s : State) : Word :=
  BitVec.ofNat 32 (s.busy.toNat + 2 * s.done.toNat + 4 * s.tableValid.toNat + 8 * (rowAvail s).toNat +
    16 * (rowHold s).toNat + 256 * s.err.toNat)

/-- PARAM (R28): N_MAX bits 5:0, K_MAX 12:8, SAMPLE_W 21:16, FRAC 28:24. -/
def paramWord (p : Params) : Word :=
  BitVec.ofNat 32 (p.nMax + 2 ^ 8 * p.kMax + 2 ^ 16 * p.sampleW + 2 ^ 24 * p.frac)

/-- Is every row of the matrix filled: G_VALID[i] = 1 for i < G_ROWS? (R34) -/
def rowsFilled (s : State) : Bool := allUpTo s.gRows.toNat s.gValid.getLsbD

/-- Is every sample of the vector filled: RX_VALID[j] = 1 for j < G_ROWS? (R40) -/
def samplesFilled (s : State) : Bool := allUpTo s.gRows.toNat s.rxValid.getLsbD

end Sys2Proof.Machine
end

