-- ==== Sys2Proof/Machine/Operands.lean ====
section
/-! DEFINITION. Machine/Operands.lean: the functions the commands compute from the registers: the encoder, the score and
the decoder's selection, the channel arithmetic, and what an answer of the random source is used as. -/

namespace Sys2Proof.Machine
open Sys2Proof

/-- `G(i, j)`: bit j of GROW[i] (30_encoding.md R116). -/
def entryOf (grow : List Word) (i j : Nat) : Bool := (entryAt grow i).getLsbD j

/-- Bit i of a codeword: the exclusive or over j < k of G(i, j) and bit_j(w, k) (41_engine_build_encode.md R166). -/
def encBit (grow : List Word) (k w i : Nat) : Bool :=
  xorUpTo k (fun j => entryOf grow i j && bitOfWord j w k)

/-- enc of 41_engine_build_encode.md R166, a function of GROW, G_ROWS, K and w alone; bits n and above are 0. -/
def encWith (grow : List Word) (n k w : Nat) : Word := wordOfBits n (encBit grow k w)

/-- enc(w) on the present registers (R166). -/
def enc (s : State) (w : Nat) : Word := encWith s.grow s.gRows.toNat s.k.toNat w

/-- The sample RX[j] as an integer (30_encoding.md R118). -/
def sampleAt (s : State) (j : Nat) : Int := (entryAt s.rx j).toInt

/-- score(i): the sum of the samples at the positions where row i of the table is 1 (42_engine_decode.md R180). -/
def score (s : State) (i : Nat) : Int :=
  sumUpTo s.gRows.toNat (fun j => if (s.cwt.readRow i).getLsbD j then sampleAt s j else 0)

/-- The scan after candidates 0 to m: a later candidate replaces the best only when its score is strictly greater
(42_engine_decode.md R183). -/
def scanTo (f : Nat → Int) : Nat → Scan
  | 0 => ⟨0, 0, f 0⟩
  | m + 1 =>
    if f (m + 1) > (scanTo f m).bestScore then ⟨m + 1, m + 1, f (m + 1)⟩
    else ⟨m + 1, (scanTo f m).best, (scanTo f m).bestScore⟩

/-- The scan registers when all 2^K candidates have been looked at. -/
def scanAll (s : State) : Scan := scanTo (score s) (2 ^ s.k.toNat - 1)

/-- dec(RX) (42_engine_decode.md R181). -/
def dec (s : State) : Nat := (scanAll s).best

/-- AMP: the integer that stands for amplitude 1 (00_scope.md R6). -/
def ampOne (p : Params) : Int := 2 ^ p.frac

/-- SMIN, the least sample (00_scope.md R6). -/
def sampleMin (p : Params) : Int := -2 ^ (p.sampleW - 1)

/-- SMAX, the greatest sample (00_scope.md R6). -/
def sampleMax (p : Params) : Int := 2 ^ (p.sampleW - 1) - 1

/-- amp(b) (30_encoding.md R120). -/
def amp (p : Params) (b : Bool) : Int := if b then ampOne p else -ampOne p

/-- sat(v) (00_scope.md R11). -/
def sat (p : Params) (v : Int) : Int :=
  if v < sampleMin p then sampleMin p else if v > sampleMax p then sampleMax p else v

/-- noise(sigma, z): the exact product rounded to the nearest multiple of 2^-FRAC, ties up (43_simulation.md R200). The
division is floor division: the divisor is positive. -/
def noise (p : Params) (sigma : Nat) (z : Int) : Int := (sigma * z + 2 ^ (p.frac - 1)) / 2 ^ p.frac

/-- chan(b, sigma, z) (43_simulation.md R201). -/
def chan (p : Params) (b : Bool) (sigma : Nat) (z : Int) : Int := sat p (amp p b + noise p sigma z)

/-- A sample as it stands in RX: sign-extended to 32 bits (30_encoding.md R118). -/
def sampleWord (v : Int) : Word := BitVec.ofInt 32 v

/-- DrawUniform(k): the low k bits of the answer (30_encoding.md R125). -/
def drawnWord (s : State) (d : Word) : Word := lowBits s.k.toNat d

/-- DrawNormal(): the low SAMPLE_W bits of the answer, as a signed integer (30_encoding.md R125). -/
def drawnNormal (s : State) (d : Word) : Int := signedLow s.cfg.sampleW d

end Sys2Proof.Machine
end

