-- ==== Sys2Proof/Machine/Bus.lean ====
section
/-! DEFINITION. Machine/Bus.lean: the register window and the host's transactions (20_memory.md, 40_container_access.md,
10_state.md R51, R52, 43_simulation.md R208, 60_exceptions.md R246 to R248). -/

namespace Sys2Proof.Machine
open Sys2Proof

/-- The registers of the window (20_memory.md R82). -/
inductive Reg where
  | cmd | status | param | gRows | gCols | k | gValid | rxValid | word | cw | decWord | trialErr
  | sigma | sigmaStart | sigmaEnd | sigmaStep | trials | errCount | trialCount | decCycles
  | cwtIndex | cwtData | resLevel | resSigma | resErrors | resTrials | resCycles | resPop
  | grow (i : Nat)
  | rx (j : Nat)
  deriving DecidableEq, Repr

/-- The access rights of 20_memory.md R82. -/
inductive Access where
  | readOnly
  | writeOnly
  | readWrite
  deriving DecidableEq, Repr

/-- The causes of a failed transaction (60_exceptions.md R247). The host sees only ERROR (R246). -/
inductive BusError where
  | align
  | unmapped
  | busy
  | readOnly
  | range
  | uninit
  | noEngine
  deriving DecidableEq, Repr

/-- The single registers of the window by byte offset (20_memory.md R82). -/
def windowTable : List (Nat × Reg) :=
  [(0x000, .cmd), (0x004, .status), (0x008, .param), (0x00C, .gRows), (0x010, .gCols), (0x014, .k),
   (0x018, .gValid), (0x01C, .rxValid), (0x020, .word), (0x024, .cw), (0x028, .decWord), (0x02C, .trialErr)] ++
  [(0x030, .sigma), (0x034, .sigmaStart), (0x038, .sigmaEnd), (0x03C, .sigmaStep), (0x040, .trials),
   (0x044, .errCount), (0x048, .trialCount), (0x04C, .decCycles), (0x050, .cwtIndex), (0x054, .cwtData)] ++
  [(0x058, .resLevel), (0x05C, .resSigma), (0x060, .resErrors), (0x064, .resTrials), (0x068, .resCycles),
   (0x06C, .resPop)]

/-- The register at an aligned byte offset, or none where the offset is unmapped (20_memory.md R82, R83). -/
def regAt (p : Params) (offset : Nat) : Option Reg :=
  if 0x080 ≤ offset ∧ offset < 0x080 + 4 * p.nMax then some (.grow ((offset - 0x080) / 4))
  else if 0x100 ≤ offset ∧ offset < 0x100 + 4 * p.nMax then some (.rx ((offset - 0x100) / 4))
  else windowTable.lookup offset

/-- The access column of 20_memory.md R82. -/
def accessOf : Reg → Access
  | .cmd | .resPop => .writeOnly
  | .gRows | .gCols | .k | .word | .sigma | .sigmaStart | .sigmaEnd | .sigmaStep | .trials | .cwtIndex => .readWrite
  | .grow _ | .rx _ => .readWrite
  | .status | .param | .gValid | .rxValid | .cw | .decWord | .trialErr | .errCount | .trialCount | .decCycles => .readOnly
  | .cwtData | .resLevel | .resSigma | .resErrors | .resTrials | .resCycles => .readOnly

/-- The reads admitted while BUSY = 1 (20_memory.md R88). -/
def readWhileBusy : Reg → Bool
  | .status | .param | .resLevel | .resSigma | .resErrors | .resTrials | .resCycles => true
  | _ => false

/-- The one write admitted while BUSY = 1 (20_memory.md R88). -/
def writeWhileBusy : Reg → Bool
  | .resPop => true
  | _ => false

/-- Is v representable in the stored bits of the register (20_memory.md R87)? CMD, TRIALS and RES_POP take every word. -/
def fits (p : Params) (r : Reg) (v : Word) : Bool :=
  match r with
  | .gRows => decide (v.toNat < 2 ^ 6)
  | .gCols | .k => decide (v.toNat < 2 ^ 5)
  | .word | .cwtIndex | .grow _ => decide (v.toNat < 2 ^ p.kMax)
  | .sigma | .sigmaStart | .sigmaEnd | .sigmaStep => decide (v.toNat < 2 ^ p.sampleW)
  | .rx _ => decide (sampleMin p ≤ v.toInt ∧ v.toInt ≤ sampleMax p)
  | _ => true

/-- The read of a mapped register that BUSY does not refuse (40_container_access.md R141, R145 to R147; 10_state.md R51;
write-only registers read 0, 20_memory.md R86). DESIGN CHOICE (log 20): a read of CWT_DATA tests NOENGINE before RANGE, the
order of R146; 60_exceptions.md R248 ranks RANGE by index first. The host cannot tell (R246, 93_implementation_defined.md
U17). RES_LEVEL of a queue longer than 32 bits can count is a free value (`queueLevel`, log 19). -/
def readReg (s : State) : Reg → Except BusError Word
  | .cmd | .resPop => .ok 0
  | .status => .ok (statusWord s)
  | .param => .ok (paramWord s.cfg)
  | .gRows => .ok (s.gRows.setWidth 32)
  | .gCols => .ok (s.gCols.setWidth 32)
  | .k => .ok (s.k.setWidth 32)
  | .gValid => .ok s.gValid
  | .rxValid => .ok s.rxValid
  | .word => .ok s.word
  | .cw => .ok s.cw
  | .decWord => .ok s.decWord
  | .trialErr => .ok (BitVec.ofNat 32 s.trialErr.toNat)
  | .sigma => .ok s.sigma
  | .sigmaStart => .ok s.sigmaStart
  | .sigmaEnd => .ok s.sigmaEnd
  | .sigmaStep => .ok s.sigmaStep
  | .trials => .ok s.trials
  | .errCount => .ok s.errCount
  | .trialCount => .ok s.trialCount
  | .decCycles => .ok s.decCycles
  | .cwtIndex => .ok s.cwtIndex
  | .cwtData =>
    if s.tableValid = false then .error .noEngine
    else if s.cwtIndex.toNat ≥ 2 ^ s.k.toNat then .error .range
    else .ok (s.cwt.readRow s.cwtIndex.toNat)
  | .resLevel => .ok (queueLevel s)
  | .resSigma => .ok (headRow s).sigma
  | .resErrors => .ok (headRow s).errors
  | .resTrials => .ok (headRow s).trials
  | .resCycles => .ok (headRow s).cycles
  | .grow i =>
    if i ≥ s.gRows.toNat then .error .range
    else if s.gValid.getLsbD i = false then .error .uninit
    else .ok (entryAt s.grow i)
  | .rx j =>
    if j ≥ s.gRows.toNat then .error .range
    else if s.rxValid.getLsbD j = false then .error .uninit
    else .ok (entryAt s.rx j)

/-- The write of a value that fits to a mapped register that may be written (40_container_access.md R140, R142 to R144,
R147; 41_engine_build_encode.md R160; 43_simulation.md R208). -/
def writeReg (s : State) (v : Word) : Reg → Except BusError State
  | .cmd => .ok (startCommand v s)
  | .resPop => .ok (if v.getLsbD 0 then popRow s else s)
  | .gRows => .ok (emptyStores { s with gRows := v.setWidth 6 })
  | .gCols => .ok (emptyStores { s with gCols := v.setWidth 5 })
  | .k => .ok { s with k := v.setWidth 5, tableValid := false }
  | .word => .ok { s with word := v }
  | .sigma => .ok { s with sigma := v }
  | .sigmaStart => .ok { s with sigmaStart := v }
  | .sigmaEnd => .ok { s with sigmaEnd := v }
  | .sigmaStep => .ok { s with sigmaStep := v }
  | .trials => .ok { s with trials := v }
  | .cwtIndex => .ok { s with cwtIndex := v }
  | .grow i =>
    if i ≥ s.gRows.toNat then .error .range
    else if v.toNat >>> s.gCols.toNat ≠ 0 then .error .range
    else .ok { s with grow := s.grow.set i v, gValid := setBit s.gValid i, tableValid := false }
  | .rx j =>
    if j ≥ s.gRows.toNat then .error .range
    else .ok { s with rx := s.rx.set j v, rxValid := setBit s.rxValid j }
  | _ => .error .readOnly

/-- MemRead(offset, size) (20_memory.md R81), its checks in the order of 60_exceptions.md R248, but for the two of CWT_DATA,
which come in the order of 40_container_access.md R146 (log 20, at `readReg`). -/
def busRead (s : State) (offset size : Nat) : Except BusError Word :=
  if offset % 4 ≠ 0 ∨ size ≠ 4 then .error .align
  else
    match regAt s.cfg offset with
    | none => .error .unmapped
    | some r => if s.busy = true ∧ readWhileBusy r = false then .error .busy else readReg s r

/-- MemWrite(offset, size, v) (20_memory.md R81), its checks in the order of 60_exceptions.md R248. -/
def busWrite (s : State) (offset size : Nat) (v : Word) : Except BusError State :=
  if offset % 4 ≠ 0 ∨ size ≠ 4 then .error .align
  else
    match regAt s.cfg offset with
    | none => .error .unmapped
    | some r =>
      if s.busy = true ∧ writeWhileBusy r = false then .error .busy
      else if accessOf r = .readOnly then .error .readOnly
      else if fits s.cfg r v = false then .error .range
      else writeReg s v r

/-- A response with OKAY. -/
def okayResponse (data : Word) : Response := ⟨.okay, data⟩

/-- `raise BusError(cause)` as the host sees it: ERROR and data 0, whatever the cause (60_exceptions.md R246). -/
def errorResponse : Response := ⟨.error, 0⟩

/-- The response handed back to the host is recorded. -/
def respond (r : Response) (s : State) : State := { s with responses := s.responses ++ [r] }

/-- One host transaction: complete before anything else happens (20_memory.md R81, R90). -/
def hostAccess (t : Txn) (s : State) : State :=
  match t with
  | .read offset size =>
    match busRead s offset size with
    | .ok v => respond (okayResponse v) s
    | .error _ => respond errorResponse s
  | .write offset size v =>
    match busWrite s offset size v with
    | .ok s' => respond (okayResponse 0) s'
    | .error _ => respond errorResponse s

end Sys2Proof.Machine
end

