-- ==== Sys2Proof/Machine/Engine.lean ====
section
/-! DEFINITION. Machine/Engine.lean: NOP, BUILD, ENCODE and DECODE. Each is one step at its completion, as
41_engine_build_encode.md R164 allows: between its start and its completion the host can see BUSY = 1 only. -/

namespace Sys2Proof.Machine
open Sys2Proof

/-- NOP (41_engine_build_encode.md R162). -/
def execNop (s : State) : Result := .next (complete 0 s)

/-- BUILD's checks, in the order of R165: the shape, then k, then the rows. -/
def buildCheck (s : State) : Option CmdError :=
  if s.gRows.toNat = 0 ∨ s.gRows.toNat > s.cfg.nMax then some .config
  else if s.gCols.toNat = 0 ∨ s.gCols.toNat > s.cfg.kMax then some .config
  else if s.k.toNat = 0 ∨ s.k.toNat > s.gCols.toNat then some .config
  else if rowsFilled s = false then some .uninit
  else none

/-- The table of the engine: rows 0 to 2^K - 1 are enc(i), the rows above keep what they held (R165). -/
def builtTable (s : State) : Memory := s.cwt.fillRows (enc s) (2 ^ s.k.toNat)

/-- BUILD (41_engine_build_encode.md R165). -/
def execBuild (s : State) : Result :=
  match buildCheck s with
  | some e => .next (raiseCmdError e s)
  | none => .next (complete 0 { s with cwt := builtTable s, tableValid := true })

/-- ENCODE's checks (41_engine_build_encode.md R169). -/
def encodeCheck (s : State) : Option CmdError :=
  if s.tableValid = false then some .noEngine
  else if s.word.toNat ≥ 2 ^ s.k.toNat then some .range
  else none

/-- ENCODE (41_engine_build_encode.md R169). -/
def execEncode (s : State) : Result :=
  match encodeCheck s with
  | some e => .next (raiseCmdError e s)
  | none => .next (complete 0 { s with cw := enc s s.word.toNat })

/-- The decode step of DECODE and of a trial: the scan of all candidates, its best index in DEC_WORD, and a free value in
DEC_CYCLES (42_engine_decode.md R182, 43_simulation.md R212). -/
def decodeStep (s : State) : State :=
  { s with
    scan := scanAll s, decWord := BitVec.ofNat 32 (dec s),
    decCycles := Config.freeCycles s.freeCount, freeCount := s.freeCount + 1 }

/-- DECODE's checks (42_engine_decode.md R182). -/
def decodeCheck (s : State) : Option CmdError :=
  if s.tableValid = false then some .noEngine
  else if samplesFilled s = false then some .uninit
  else none

/-- DECODE (42_engine_decode.md R182). -/
def execDecode (s : State) : Result :=
  match decodeCheck s with
  | some e => .next (raiseCmdError e s)
  | none => .next (complete 0 (decodeStep s))

end Sys2Proof.Machine
end

