-- ==== Sys2Proof/Machine/Reserved.lean ====
section
/-! DEFINITION. Machine/Reserved.lean: the reserved command words (41_engine_build_encode.md R163), one definition per
row of the opcode table. Each raises CmdError(ILLCMD) and does nothing else, whatever the state (60_exceptions.md R248). -/

namespace Sys2Proof.Machine

/-- ILLCMD.opc6_7, R163. -/
def execIllOpc6_7 (_low : BitVec 1) (s : State) : Result := .next (raiseCmdError .illCmd s)

/-- ILLCMD.opc8_15, R163. -/
def execIllOpc8_15 (_low : BitVec 3) (s : State) : Result := .next (raiseCmdError .illCmd s)

/-- ILLCMD.top4, R163. -/
def execIllTop4 (_low : BitVec 4) (s : State) : Result := .next (raiseCmdError .illCmd s)

/-- ILLCMD.top5, R163. -/
def execIllTop5 (_low : BitVec 5) (s : State) : Result := .next (raiseCmdError .illCmd s)

/-- ILLCMD.top6, R163. -/
def execIllTop6 (_low : BitVec 6) (s : State) : Result := .next (raiseCmdError .illCmd s)

/-- ILLCMD.top7, R163. -/
def execIllTop7 (_low : BitVec 7) (s : State) : Result := .next (raiseCmdError .illCmd s)

/-- ILLCMD.top8, R163. -/
def execIllTop8 (_low : BitVec 8) (s : State) : Result := .next (raiseCmdError .illCmd s)

/-- ILLCMD.top9, R163. -/
def execIllTop9 (_low : BitVec 9) (s : State) : Result := .next (raiseCmdError .illCmd s)

/-- ILLCMD.top10, R163. -/
def execIllTop10 (_low : BitVec 10) (s : State) : Result := .next (raiseCmdError .illCmd s)

/-- ILLCMD.top11, R163. -/
def execIllTop11 (_low : BitVec 11) (s : State) : Result := .next (raiseCmdError .illCmd s)

/-- ILLCMD.top12, R163. -/
def execIllTop12 (_low : BitVec 12) (s : State) : Result := .next (raiseCmdError .illCmd s)

/-- ILLCMD.top13, R163. -/
def execIllTop13 (_low : BitVec 13) (s : State) : Result := .next (raiseCmdError .illCmd s)

/-- ILLCMD.top14, R163. -/
def execIllTop14 (_low : BitVec 14) (s : State) : Result := .next (raiseCmdError .illCmd s)

/-- ILLCMD.top15, R163. -/
def execIllTop15 (_low : BitVec 15) (s : State) : Result := .next (raiseCmdError .illCmd s)

/-- ILLCMD.top16, R163. -/
def execIllTop16 (_low : BitVec 16) (s : State) : Result := .next (raiseCmdError .illCmd s)

/-- ILLCMD.top17, R163. -/
def execIllTop17 (_low : BitVec 17) (s : State) : Result := .next (raiseCmdError .illCmd s)

/-- ILLCMD.top18, R163. -/
def execIllTop18 (_low : BitVec 18) (s : State) : Result := .next (raiseCmdError .illCmd s)

/-- ILLCMD.top19, R163. -/
def execIllTop19 (_low : BitVec 19) (s : State) : Result := .next (raiseCmdError .illCmd s)

/-- ILLCMD.top20, R163. -/
def execIllTop20 (_low : BitVec 20) (s : State) : Result := .next (raiseCmdError .illCmd s)

/-- ILLCMD.top21, R163. -/
def execIllTop21 (_low : BitVec 21) (s : State) : Result := .next (raiseCmdError .illCmd s)

/-- ILLCMD.top22, R163. -/
def execIllTop22 (_low : BitVec 22) (s : State) : Result := .next (raiseCmdError .illCmd s)

/-- ILLCMD.top23, R163. -/
def execIllTop23 (_low : BitVec 23) (s : State) : Result := .next (raiseCmdError .illCmd s)

/-- ILLCMD.top24, R163. -/
def execIllTop24 (_low : BitVec 24) (s : State) : Result := .next (raiseCmdError .illCmd s)

/-- ILLCMD.top25, R163. -/
def execIllTop25 (_low : BitVec 25) (s : State) : Result := .next (raiseCmdError .illCmd s)

/-- ILLCMD.top26, R163. -/
def execIllTop26 (_low : BitVec 26) (s : State) : Result := .next (raiseCmdError .illCmd s)

/-- ILLCMD.top27, R163. -/
def execIllTop27 (_low : BitVec 27) (s : State) : Result := .next (raiseCmdError .illCmd s)

/-- ILLCMD.top28, R163. -/
def execIllTop28 (_low : BitVec 28) (s : State) : Result := .next (raiseCmdError .illCmd s)

/-- ILLCMD.top29, R163. -/
def execIllTop29 (_low : BitVec 29) (s : State) : Result := .next (raiseCmdError .illCmd s)

/-- ILLCMD.top30, R163. -/
def execIllTop30 (_low : BitVec 30) (s : State) : Result := .next (raiseCmdError .illCmd s)

/-- ILLCMD.top31, R163. -/
def execIllTop31 (_low : BitVec 31) (s : State) : Result := .next (raiseCmdError .illCmd s)

end Sys2Proof.Machine
end

