-- ==== Sys2Proof/Machine/Simulation.lean ====
section
/-! DEFINITION. Machine/Simulation.lean: the single trial, TRIAL and SWEEP. A run of either command is many steps: one for
each draw request, one for each answer taken, one for each decode, one for each row push (43_simulation.md R203, R206,
R207; 92_eei_decisions.md D35); exec does the step that `State.pos` says comes next (log 17). -/

namespace Sys2Proof.Machine
open Sys2Proof

/-- The position after coordinates 0 to j-1 of the trial have their noise. -/
def nextCoordinate (s : State) (j : Nat) : Pos := if j < s.gRows.toNat then .drawNoise j else .judge

/-- Answer d to the word's request is taken: WORD and CW (43_simulation.md R203). -/
def takeWord (d : Word) (s : State) : State :=
  { s with
    draw := .none, word := drawnWord s d, cw := enc s (drawnWord s d).toNat, pos := nextCoordinate s 0 }

/-- Answer d to coordinate j's request is taken: RX[j] and RX_VALID[j] (43_simulation.md R203). -/
def takeNoise (sigma j : Nat) (d : Word) (s : State) : State :=
  { s with
    draw := .none,
    rx := s.rx.set j (sampleWord (chan s.cfg (s.cw.getLsbD j) sigma (drawnNormal s d))),
    rxValid := setBit s.rxValid j, pos := nextCoordinate s (j + 1) }

/-- The trial's decode and its error flag (43_simulation.md R203). -/
def judgeTrial (s : State) : State :=
  { decodeStep s with trialErr := decide ((decodeStep s).decWord ≠ s.word) }

/-- One step of trial(sigma) up to the decode (43_simulation.md R203). Without an answer the step holds. The positions
that are not the trial's own do nothing here (log 12). -/
def trialStep (sigma : Nat) (s : State) : State :=
  match s.pos with
  | .drawWord => requestDraw (.uniform s.k.toNat) .takeWord s
  | .takeWord =>
    match s.draw with
    | .answered d => takeWord d s
    | _ => s
  | .drawNoise j => requestDraw .normal (.takeNoise j) s
  | .takeNoise j =>
    match s.draw with
    | .answered d => takeNoise sigma j d s
    | _ => s
  | _ => s

/-- TRIAL (43_simulation.md R204). -/
def execTrial (s : State) : Result :=
  match s.pos with
  | .start =>
    if s.tableValid = false then .next (raiseCmdError .noEngine s)
    else .next { s with pos := .drawWord }
  | .judge => .next (complete 0 (judgeTrial s))
  | _ => .next (trialStep s.sigma.toNat s)

/-- SWEEP's checks, in the order of 43_simulation.md R205. -/
def sweepCheck (s : State) : Option CmdError :=
  if s.tableValid = false then some .noEngine
  else if s.sigmaStart.toNat = 0 then some .config
  else if s.sigmaStart.toNat ≥ s.sigmaEnd.toNat then some .config
  else if s.sigmaStep.toNat = 0 then some .config
  else if s.trials.toNat = 0 then some .config
  else none

/-- The start of level v: SIGMA and the tallies (43_simulation.md R206). -/
def beginLevel (v : Nat) (s : State) : State :=
  { s with
    level := v, sigma := BitVec.ofNat 32 v, errCount := 0, trialCount := 0, decCycles := 0, pos := .drawWord }

/-- The end of one trial of a level: the tallies, then the next trial or the row (43_simulation.md R206). -/
def tallyTrial (s : State) : State :=
  { s with
    trialCount := s.trialCount + 1,
    errCount := if s.trialErr then s.errCount + 1 else s.errCount,
    pos := if s.trialCount.toNat + 1 < s.trials.toNat then .drawWord else .push }

/-- The finished level's row (30_encoding.md R122, 43_simulation.md R206). -/
def levelRow (s : State) : ResultRow := ⟨BitVec.ofNat 32 s.level, s.errCount, s.trialCount, s.decCycles⟩

/-- The push of the finished level's row; while the queue is full the sequencer holds (43_simulation.md R207). -/
def pushLevelRow (s : State) : State :=
  if s.resq.length < s.cfg.resqDepth then { appendRow (levelRow s) s with pos := .nextLevel } else s

/-- After the push: the next level while it is at most SIGMA_END, compared without wrap, else the end of the sweep
(43_simulation.md R206). -/
def advanceLevel (s : State) : State :=
  if s.level + s.sigmaStep.toNat ≤ s.sigmaEnd.toNat then beginLevel (s.level + s.sigmaStep.toNat) s
  else complete 0 { s with level := s.level + s.sigmaStep.toNat }

/-- SWEEP (43_simulation.md R205 to R207). -/
def execSweep (s : State) : Result :=
  match s.pos with
  | .start =>
    match sweepCheck s with
    | some e => .next (raiseCmdError e s)
    | none => .next (beginLevel s.sigmaStart.toNat s)
  | .judge => .next (tallyTrial (judgeTrial s))
  | .push => .next (pushLevelRow s)
  | .nextLevel => .next (advanceLevel s)
  | _ => .next (trialStep s.level s)

end Sys2Proof.Machine
end

