-- ==== Sys2Proof/Machine/Dispatch.lean ====
section
/-! DEFINITION. Machine/Dispatch.lean: one arm per constructor of Instr. -/

namespace Sys2Proof.Machine
open Sys2Proof

def exec (i : Instr) (s : State) : Host.Outcome State Fault Refusal :=
  match i with
  | .nop => Sys2Proof.Machine.execNop s
  | .build => Sys2Proof.Machine.execBuild s
  | .encode => Sys2Proof.Machine.execEncode s
  | .decode => Sys2Proof.Machine.execDecode s
  | .trial => Sys2Proof.Machine.execTrial s
  | .sweep => Sys2Proof.Machine.execSweep s
  | .illOpc6_7 low => Sys2Proof.Machine.execIllOpc6_7 low s
  | .illOpc8_15 low => Sys2Proof.Machine.execIllOpc8_15 low s
  | .illTop4 low => Sys2Proof.Machine.execIllTop4 low s
  | .illTop5 low => Sys2Proof.Machine.execIllTop5 low s
  | .illTop6 low => Sys2Proof.Machine.execIllTop6 low s
  | .illTop7 low => Sys2Proof.Machine.execIllTop7 low s
  | .illTop8 low => Sys2Proof.Machine.execIllTop8 low s
  | .illTop9 low => Sys2Proof.Machine.execIllTop9 low s
  | .illTop10 low => Sys2Proof.Machine.execIllTop10 low s
  | .illTop11 low => Sys2Proof.Machine.execIllTop11 low s
  | .illTop12 low => Sys2Proof.Machine.execIllTop12 low s
  | .illTop13 low => Sys2Proof.Machine.execIllTop13 low s
  | .illTop14 low => Sys2Proof.Machine.execIllTop14 low s
  | .illTop15 low => Sys2Proof.Machine.execIllTop15 low s
  | .illTop16 low => Sys2Proof.Machine.execIllTop16 low s
  | .illTop17 low => Sys2Proof.Machine.execIllTop17 low s
  | .illTop18 low => Sys2Proof.Machine.execIllTop18 low s
  | .illTop19 low => Sys2Proof.Machine.execIllTop19 low s
  | .illTop20 low => Sys2Proof.Machine.execIllTop20 low s
  | .illTop21 low => Sys2Proof.Machine.execIllTop21 low s
  | .illTop22 low => Sys2Proof.Machine.execIllTop22 low s
  | .illTop23 low => Sys2Proof.Machine.execIllTop23 low s
  | .illTop24 low => Sys2Proof.Machine.execIllTop24 low s
  | .illTop25 low => Sys2Proof.Machine.execIllTop25 low s
  | .illTop26 low => Sys2Proof.Machine.execIllTop26 low s
  | .illTop27 low => Sys2Proof.Machine.execIllTop27 low s
  | .illTop28 low => Sys2Proof.Machine.execIllTop28 low s
  | .illTop29 low => Sys2Proof.Machine.execIllTop29 low s
  | .illTop30 low => Sys2Proof.Machine.execIllTop30 low s
  | .illTop31 low => Sys2Proof.Machine.execIllTop31 low s

end Sys2Proof.Machine
end

