-- ==== Sys2Proof/Machine/Moves.lean ====
section
/-! DEFINITION. Machine/Moves.lean: what one move of each agent does (20_memory.md R90, R92, R95). -/

namespace Sys2Proof.Machine
open Sys2Proof

/-- The sequencer's turn: nothing while idle, else the next step of the running command (10_state.md R60). -/
def sequencerTurn (s : State) : Result :=
  match s.phase with
  | .idle => .next s
  | .run i => exec i s

/-- One move of the interleaving. -/
def applyMove (m : Move) (s : State) : Result :=
  match m with
  | .host t => .next (hostAccess t s)
  | .answer d => .next (receiveAnswer d s)
  | .sequencer => sequencerTurn s
  | .reset => .next (resetCore s)

end Sys2Proof.Machine
end

