-- ==== Sys2Proof/Machine/Step.lean ====
section
/-! DEFINITION. Machine/Step.lean: one step: the next move of the interleaving, or the sequencer's where none is listed. -/

namespace Sys2Proof.Machine
open Sys2Proof

/-- One step (20_memory.md R90). With no move listed the sequencer moves (log 8). -/
def step (s : State) : Host.Outcome State Fault Refusal :=
  match s.inputs with
  | [] => sequencerTurn s
  | m :: rest => applyMove m { s with inputs := rest }

/-- s with the instruction of nbits bits w as the command just accepted from the write to CMD, and the sequencer's move
next (log 14). -/
def State.withFetchWord (s : State) (nbits w : Nat) : State := loadCommand (tableWord nbits w) s

end Sys2Proof.Machine
end

