-- ==== Sys2Proof/Machine/Views.lean ====
section
/-! DEFINITION. Machine/Views.lean: the source's four result fields as functions of a row (43_simulation.md R226). The
core computes none of them: the host does, over real numbers, so nothing in the step uses this file. -/

namespace Sys2Proof.Machine
open Sys2Proof

/-- sigma_real = sigma / 2^FRAC. -/
def sigmaReal (p : Params) (r : ResultRow) : Rat := (r.sigma.toNat : Rat) / 2 ^ p.frac

/-- error_rate = errors / trials. -/
def errorRate (r : ResultRow) : Rat := (r.errors.toNat : Rat) / r.trials.toNat

/-- avg_duration = cycles * T_CLK / trials, in seconds; T_CLK is the open parameter of 00_scope.md R6, positive by its type
(log 16). -/
def avgDuration (tClk : ClockPeriod) (r : ResultRow) : Rat := (r.cycles.toNat : Rat) * tClk.seconds / r.trials.toNat

/-- snr_db = 10 log10 (1 / sigma_real^2). -/
noncomputable def snrDb (p : Params) (r : ResultRow) : Real := 10 * Real.logb 10 (1 / (sigmaReal p r : Real) ^ 2)

end Sys2Proof.Machine
end

