-- ==== Sys2Proof/Safety.lean ====
section
/-! DEFINITION. Safety.lean: what holds of the core at all times, from the rules about the whole machine. The parts are
separate so that a statement takes as premise only the part it needs. -/

namespace Sys2Proof.Machine
open Sys2Proof

/-- STATUS and PHASE agree (10_state.md R23, R24, R25, R60; 60_exceptions.md R240: codes 3 and 7 to 15 are never written;
20_memory.md R92: DONE = 0 and ERR = 0 during a command). -/
structure ControlInv (s : State) : Prop where
  busy_iff  : s.busy = true ↔ s.phase ≠ .idle
  not_both  : s.busy = true → s.done = false
  err_codes : s.err ∈ [0#4, 1#4, 2#4, 4#4, 5#4, 6#4]
  err_done  : s.done = false → s.err = 0

/-- A command that runs trials is running. -/
def running (s : State) : Prop := s.phase = .run .trial ∨ s.phase = .run .sweep

/-- Where the sequencer can stand (10_state.md R60), that a running BUILD holds TABLE_VALID at 0 (20_memory.md R92), that
trials run only with an engine (43_simulation.md R203), and that a draw is pending exactly while the sequencer waits for
it, of the kind it asked for (10_state.md R62, 30_encoding.md R125). -/
structure RunInv (s : State) : Prop where
  build_ends_engine : s.phase = .run .build → s.tableValid = false
  at_start          : ∀ i, s.phase = .run i → i ≠ .trial → i ≠ .sweep → s.pos = .start
  has_engine        : running s → s.pos ≠ .start → s.tableValid = true
  trial_pos         : s.phase = .run .trial → s.pos ≠ .push ∧ s.pos ≠ .nextLevel
  coordinate        : running s → ∀ j, s.pos = .drawNoise j ∨ s.pos = .takeNoise j → j < s.gRows.toNat
  draw_pending      : s.draw ≠ .none ↔ running s ∧ (s.pos = .takeWord ∨ ∃ j, s.pos = .takeNoise j)
  word_request      : running s → s.pos = .takeWord → ∀ q, s.draw = .requested q → q = .uniform s.k.toNat
  noise_request     : running s → ∀ j, s.pos = .takeNoise j → ∀ q, s.draw = .requested q → q = .normal

/-- The engine invariant (10_state.md R63), here also while a command runs, with the table's canonical form. -/
structure EngineInv (s : State) : Prop where
  table_form : s.cwt.wf = true
  rows       : s.tableValid = true → 1 ≤ s.gRows.toNat ∧ s.gRows.toNat ≤ s.cfg.nMax
  columns    : s.tableValid = true → 1 ≤ s.k.toNat ∧ s.k.toNat ≤ s.gCols.toNat ∧ s.gCols.toNat ≤ s.cfg.kMax
  filled     : s.tableValid = true → ∀ i, i < s.gRows.toNat → s.gValid.getLsbD i = true
  table      : s.tableValid = true → ∀ i, i < 2 ^ s.k.toNat → s.cwt.readRow i = enc s i

/-- Every register holds a value of its stored bits (20_memory.md R82), and the register files have one entry for each
mapped offset. -/
structure StoreInv (s : State) : Prop where
  grow_length : s.grow.length = s.cfg.nMax
  grow_bits   : ∀ v ∈ s.grow, v.toNat < 2 ^ s.cfg.kMax
  rx_length   : s.rx.length = s.cfg.nMax
  rx_bits     : ∀ v ∈ s.rx, sampleMin s.cfg ≤ v.toInt ∧ v.toInt ≤ sampleMax s.cfg
  gValid_bits : s.gValid.toNat < 2 ^ s.cfg.nMax
  rxValid_bits : s.rxValid.toNat < 2 ^ s.cfg.nMax
  word_bits   : s.word.toNat < 2 ^ s.cfg.kMax
  cw_bits     : s.cw.toNat < 2 ^ s.cfg.nMax
  decWord_bits : s.decWord.toNat < 2 ^ s.cfg.kMax
  cwtIndex_bits : s.cwtIndex.toNat < 2 ^ s.cfg.kMax
  sigma_bits  : s.sigma.toNat < 2 ^ s.cfg.sampleW
  start_bits  : s.sigmaStart.toNat < 2 ^ s.cfg.sampleW
  end_bits    : s.sigmaEnd.toNat < 2 ^ s.cfg.sampleW
  step_bits   : s.sigmaStep.toNat < 2 ^ s.cfg.sampleW

/-- A running sweep is at one of its levels with its tallies within bounds (43_simulation.md R205, R206, R209; 10_state.md
R44, R45). -/
structure SweepInv (s : State) : Prop where
  checked   : s.phase = .run .sweep → s.pos ≠ .start →
    0 < s.sigmaStart.toNat ∧ 0 < s.sigmaStep.toNat ∧ 0 < s.trials.toNat
  at_level  : s.phase = .run .sweep → s.pos ≠ .start →
    s.sigma.toNat = s.level ∧ s.level ≤ s.sigmaEnd.toNat ∧ ∃ m, s.level = s.sigmaStart.toNat + m * s.sigmaStep.toNat
  tallies   : s.phase = .run .sweep → s.pos ≠ .start →
    s.errCount.toNat ≤ s.trialCount.toNat ∧
      (if s.pos = .push ∨ s.pos = .nextLevel then s.trialCount = s.trials else s.trialCount.toNat < s.trials.toNat)

/-- The result queue holds at most RESQ_DEPTH rows (10_state.md R50), each of a positive level that SIGMA can hold, with
errors ≤ trials and trials ≥ 1 (43_simulation.md R209). -/
structure QueueInv (s : State) : Prop where
  depth : s.resq.length ≤ s.cfg.resqDepth
  rows  : ∀ r ∈ s.resq, 1 ≤ r.sigma.toNat ∧ r.sigma.toNat < 2 ^ s.cfg.sampleW ∧
    r.errors.toNat ≤ r.trials.toNat ∧ 1 ≤ r.trials.toNat

/-- All of it together, for an instance whose parameters meet 00_scope.md R6. -/
structure Inv (s : State) : Prop where
  params  : s.cfg.wellFormed = true
  control : ControlInv s
  run     : RunInv s
  engine  : EngineInv s
  stores  : StoreInv s
  sweep   : SweepInv s
  queue   : QueueInv s

end Sys2Proof.Machine
end

