-- ==== Sys2Proof/WellFormed.lean ====
section
/-! DEFINITION. WellFormed.lean: which transactions have the format of 30_encoding.md R114.

An `Instr` needs no check: the types of its fields hold exactly the bits the row leaves free (Decode.lean shows that
every word has an `Instr` and every `Instr` a word). The parameters' check is `Params.wellFormed` (Config.lean). -/

namespace Sys2Proof

/-- Byte offset of a transaction. -/
def Txn.offset : Txn → Nat
  | .read a _ => a
  | .write a _ _ => a

/-- Size of a transaction in bytes. -/
def Txn.size : Txn → Nat
  | .read _ n => n
  | .write _ n _ => n

/-- 30_encoding.md R114: "offset a multiple of 4 in 0x000 to 0x1FC", one 32-bit word. A transaction that fails this is
still answered by the core, with ERROR (20_memory.md R83, R84). -/
def Txn.wellFormed (t : Txn) : Bool :=
  decide (t.offset % 4 = 0) && decide (t.offset ≤ 0x1FC) && decide (t.size = 4)

end Sys2Proof
end

