-- ==== Sys2Proof/Certificates/Slice0/Obligations.lean ====
section
/-! DEFINITION. Certificates/Slice0/Obligations.lean: the statements for the provers, from the numbered rules of spec/.
A command's next state is written as the state before with the changed fields: every field not named is unchanged, so
each such equation is also the command's frame. -/

open Sys2Proof Sys2Proof.Machine

/-! ### The command word -/

/-- 30_encoding.md R110, R111: words written out from the table, two of them reserved words that a decoder of bits 3:0
alone would take for BUILD. -/
def Obligations.SampleWordsDecodeAsTabled : Prop :=
  decode 0x00000000#32 = .nop ∧ decode 0x00000001#32 = .build ∧ decode 0x00000002#32 = .encode ∧
  decode 0x00000003#32 = .decode ∧ decode 0x00000004#32 = .trial ∧ decode 0x00000005#32 = .sweep ∧
  decode 0x00000007#32 = .illOpc6_7 1#1 ∧ decode 0x0000000D#32 = .illOpc8_15 5#3 ∧
  decode 0x00000011#32 = .illTop4 1#4 ∧ decode 0x80000001#32 = .illTop31 1#31

/-- 30_encoding.md R110: the decoder matches the whole word. -/
def Obligations.CommandWordsAreMatchedWhole : Prop :=
  ∀ w : Word, (decode w = .nop ↔ w = 0x00000000#32) ∧ (decode w = .build ↔ w = 0x00000001#32) ∧
    (decode w = .encode ↔ w = 0x00000002#32) ∧ (decode w = .decode ↔ w = 0x00000003#32) ∧
    (decode w = .trial ↔ w = 0x00000004#32) ∧ (decode w = .sweep ↔ w = 0x00000005#32)

/-- 30_encoding.md R110, R111, R113: encoder and decoder are inverse on all instructions and on all words. -/
def Obligations.EncodeAndDecodeAgree : Prop :=
  (∀ i : Instr, decode (encode i) = i) ∧ ∀ w : Word, encode (decode w) = w

/-- 30_encoding.md R111: the 36 rows partition the words: a word lies in the row of the instruction it decodes to and in
no other. -/
def Obligations.EveryWordLiesInOneRow : Prop :=
  ∀ (w : Word) (i : Instr), (opcodeRow i).holds w = true ↔ opcodeRow i = opcodeRow (decode w)

/-! ### The step -/

/-- 20_memory.md R90, R95; 70_reset_and_hazards.md R270: a step is the next listed move, and the sequencer's turn where
none is listed; the sequencer's turn is exec of the running command. -/
def Obligations.StepTakesTheNextMove : Prop :=
  ∀ (s : State) (rest : List Move),
    (∀ t, s.inputs = .host t :: rest → step s = .next (hostAccess t { s with inputs := rest })) ∧
    (∀ d, s.inputs = .answer d :: rest → step s = .next (receiveAnswer d { s with inputs := rest })) ∧
    (s.inputs = .reset :: rest → step s = .next (resetCore { s with inputs := rest })) ∧
    (∀ i, s.phase = .run i → s.inputs = .sequencer :: rest → step s = exec i { s with inputs := rest }) ∧
    (∀ i, s.phase = .run i → s.inputs = [] → step s = exec i s)

/-- 41_engine_build_encode.md R160: a write of any word to CMD starts the command the word decodes to; while BUSY = 1 it
is answered ERROR and changes nothing. -/
def Obligations.WriteToCmdStartsTheCommand : Prop :=
  ∀ (s : State) (w : Word) (rest : List Move), s.inputs = .host (.write 0x000 4 w) :: rest →
    step s = .next
      (if s.busy = true then { s with inputs := rest, responses := s.responses ++ [⟨.error, 0⟩] }
       else
        { s with
          inputs := rest, responses := s.responses ++ [⟨.okay, 0⟩], done := false, err := 0, busy := true,
          phase := .run (decode w), pos := .start,
          tableValid := if decode w = .build then false else s.tableValid })

/-- 41_engine_build_encode.md R160 with the host's question: the step after `withFetchWord` runs the instruction that the
decoder reads from the word, from the state its start leaves. -/
def Obligations.FetchedWordRunsNext : Prop :=
  ∀ (s : State) (nbits w : Nat) (i : Instr), decodeTableWord nbits w = some i →
    step (s.withFetchWord nbits w) = exec i
      { s with
        done := false, err := 0, busy := true, phase := .run i, pos := .start,
        tableValid := if i = .build then false else s.tableValid }

/-- 60_exceptions.md R258: with no command running the sequencer's turn changes nothing. -/
def Obligations.IdleCoreKeepsItsState : Prop :=
  ∀ (s : State) (rest : List Move), s.phase = .idle →
    (s.inputs = [] → step s = .next s) ∧ (s.inputs = .sequencer :: rest → step s = .next { s with inputs := rest })

/-- 60_exceptions.md R244, R246; 43_simulation.md R207: no state makes the machine stop: an error is a next state, and so
is a hold. -/
def Obligations.EveryStepAnswers : Prop := ∀ s : State, ∃ t, step s = .next t

/-! ### NOP and the reserved words -/

/-- 41_engine_build_encode.md R162. -/
def Obligations.NopOnlyCompletes : Prop :=
  ∀ s : State, exec .nop s = .next { s with err := 0, done := true, busy := false, phase := .idle }

/-- 41_engine_build_encode.md R163: every instruction but the six commands (all of illOpc6_7, illOpc8_15, illTop4 to
illTop31), and so every word above 5, completes with ILLCMD and does nothing else. -/
def Obligations.ReservedWordsCompleteWithIllcmd : Prop :=
  (∀ (s : State) (i : Instr),
    i ≠ .nop → i ≠ .build → i ≠ .encode → i ≠ .decode → i ≠ .trial → i ≠ .sweep →
    exec i s = .next { s with err := 5, done := true, busy := false, phase := .idle }) ∧
  ∀ (s : State) (w : Word), 5 < w.toNat →
    exec (decode w) s = .next { s with err := 5, done := true, busy := false, phase := .idle }

/-! ### BUILD and ENCODE -/

/-- The configuration that BUILD refuses (41_engine_build_encode.md R165, 60_exceptions.md R241). -/
def Sys2Proof.badShape (s : State) : Prop :=
  s.gRows.toNat = 0 ∨ s.gRows.toNat > s.cfg.nMax ∨ s.gCols.toNat = 0 ∨ s.gCols.toNat > s.cfg.kMax ∨
    s.k.toNat = 0 ∨ s.k.toNat > s.gCols.toNat

/-- 41_engine_build_encode.md R165: BUILD refuses a bad configuration with CONFIG, then an unfilled row with UNINIT, and
otherwise fills rows 0 to 2^K - 1 of the table with enc, keeps the rows above, sets TABLE_VALID and so establishes the
engine invariant of 10_state.md R63. The premise is the table's canonical form, which every step keeps
(EngineInvariantIsKept). -/
def Obligations.BuildConstructsTheEngine : Prop :=
  ∀ s : State, s.cwt.wf = true →
    (badShape s → exec .build s = .next { s with err := 1, done := true, busy := false, phase := .idle }) ∧
    (¬ badShape s → (∃ i, i < s.gRows.toNat ∧ s.gValid.getLsbD i = false) →
      exec .build s = .next { s with err := 6, done := true, busy := false, phase := .idle }) ∧
    (¬ badShape s → (∀ i, i < s.gRows.toNat → s.gValid.getLsbD i = true) →
      ∃ m : Memory,
        exec .build s = .next
          { s with cwt := m, tableValid := true, err := 0, done := true, busy := false, phase := .idle } ∧
        (∀ i, i < 2 ^ s.k.toNat → m.readRow i = enc s i) ∧
        (∀ i, 2 ^ s.k.toNat ≤ i → m.readRow i = s.cwt.readRow i) ∧
        EngineInv { s with cwt := m, tableValid := true })

/-- Bit i of the codeword of w as the source words it: the parity of the number of columns j with a 1 in row i that the
word's bit j, counted from the most significant of K bits, selects. -/
def Sys2Proof.codewordBit (s : State) (w i : Nat) : Bool :=
  decide (i < s.gRows.toNat ∧
    Odd ((Finset.range s.k.toNat).filter
      (fun j => (entryAt s.grow i).getLsbD j = true ∧ w.testBit (s.k.toNat - 1 - j) = true)).card)

/-- 41_engine_build_encode.md R166: enc bit by bit, in its first form and in its last, and what it depends on. -/
def Obligations.CodewordIsTheMatrixProduct : Prop :=
  (∀ (s : State) (w i : Nat), i < 32 →
    (enc s w).getLsbD i = codewordBit s w i ∧
    (enc s w).getLsbD i =
      (decide (i < s.gRows.toNat) && parity (lowBits s.k.toNat (entryAt s.grow i) &&& revLow s.k.toNat w))) ∧
  ∀ (s t : State) (w : Nat), t.grow = s.grow → t.gRows = s.gRows → t.k = s.k → enc t w = enc s w

/-- 41_engine_build_encode.md R169: ENCODE refuses without an engine, then a word outside the code, and otherwise leaves
the word's codeword in CW; on a valid engine that is row WORD of the table (10_state.md R63). -/
def Obligations.EncodeWritesTheCodeword : Prop :=
  ∀ s : State,
    (s.tableValid = false → exec .encode s = .next { s with err := 4, done := true, busy := false, phase := .idle }) ∧
    (s.tableValid = true → 2 ^ s.k.toNat ≤ s.word.toNat →
      exec .encode s = .next { s with err := 2, done := true, busy := false, phase := .idle }) ∧
    (s.tableValid = true → s.word.toNat < 2 ^ s.k.toNat →
      ∃ c : Word,
        exec .encode s = .next { s with cw := c, err := 0, done := true, busy := false, phase := .idle } ∧
        (∀ i, i < 32 → c.getLsbD i = codewordBit s s.word.toNat i) ∧
        (EngineInv s → c = s.cwt.readRow s.word.toNat))

/-- 41_engine_build_encode.md R167, R168: the word 0 has the codeword 0, and enc is linear. -/
def Obligations.EncodeIsLinear : Prop :=
  ∀ s : State, enc s 0 = 0 ∧ ∀ a b : Nat, enc s a ^^^ enc s b = enc s (a ^^^ b)

/-- 41_engine_build_encode.md R170: the code of size k is the even half of the code of size k + 1, and the words 2^(k-1-j)
have the columns of the matrix as codewords. -/
def Obligations.CodesAreNested : Prop :=
  ∀ (grow : List Word) (n k : Nat),
    (∀ w, w < 2 ^ k → encWith grow n (k + 1) (2 * w) = encWith grow n k w) ∧
    ∀ j i, j < k → i < n → i < 32 →
      (encWith grow n k (2 ^ (k - 1 - j))).getLsbD i = (entryAt grow i).getLsbD j

/-! ### DECODE -/

/-- The samples that row i of the table selects, summed: score(i) of 42_engine_decode.md R180. -/
def Sys2Proof.correlation (s : State) (i : Nat) : Int :=
  ∑ j ∈ (Finset.range s.gRows.toNat).filter (fun j => (s.cwt.readRow i).getLsbD j = true), (entryAt s.rx j).toInt

/-- 42_engine_decode.md R182 with R181 and R212 of 43_simulation.md: DECODE refuses without an engine, then an unfilled
sample, and otherwise leaves in DEC_WORD the least index among those of greatest correlation, and some value in
DEC_CYCLES (for every value of the free counter). -/
def Obligations.DecodeReturnsTheLeastBestWord : Prop :=
  ∀ s : State,
    (s.tableValid = false → exec .decode s = .next { s with err := 4, done := true, busy := false, phase := .idle }) ∧
    (s.tableValid = true → (∃ j, j < s.gRows.toNat ∧ s.rxValid.getLsbD j = false) →
      exec .decode s = .next { s with err := 6, done := true, busy := false, phase := .idle }) ∧
    (s.tableValid = true → (∀ j, j < s.gRows.toNat → s.rxValid.getLsbD j = true) →
      ∃ (b cyc : Word) (sc : Scan) (n : Nat),
        exec .decode s = .next
          { s with
            decWord := b, decCycles := cyc, scan := sc, freeCount := n, err := 0, done := true, busy := false,
            phase := .idle } ∧
        b.toNat < 2 ^ s.k.toNat ∧
        (∀ i, i < 2 ^ s.k.toNat → correlation s i ≤ correlation s b.toNat) ∧
        ∀ i, i < b.toNat → correlation s i < correlation s b.toNat)

/-- 42_engine_decode.md R180: the score is the sum over the 1 positions, is bounded by 32 samples, and is 0 for
candidate 0 of an engine. -/
def Obligations.ScoreIsTheBoundedCorrelation : Prop :=
  ∀ (s : State) (i : Nat),
    score s i = correlation s i ∧
    (Inv s → s.tableValid = true → |score s i| ≤ 32 * 2 ^ (s.cfg.sampleW - 1)) ∧
    (EngineInv s → s.tableValid = true → score s 0 = 0)

/-- 42_engine_decode.md R184: the antipodal metric is twice the score less the sum of the samples. -/
def Obligations.ScoreOrdersLikeTheAntipodalMetric : Prop :=
  ∀ (s : State) (i : Nat),
    ∑ j ∈ Finset.range s.gRows.toNat,
        (2 * (if (s.cwt.readRow i).getLsbD j = true then 1 else 0) - 1) * (entryAt s.rx j).toInt =
      2 * score s i - ∑ j ∈ Finset.range s.gRows.toNat, (entryAt s.rx j).toInt

/-- The squared distance of the received vector from candidate i's transmitted point (42_engine_decode.md R185). -/
def Sys2Proof.squaredDistance (s : State) (i : Nat) : Int :=
  ∑ j ∈ Finset.range s.gRows.toNat, ((entryAt s.rx j).toInt - amp s.cfg ((s.cwt.readRow i).getLsbD j)) ^ 2

/-- 42_engine_decode.md R185: the squared distance in terms of the score; distance orders the candidates as the score
does, reversed; and dec(RX) is the least index of least distance. -/
def Obligations.DecoderMinimisesEuclideanDistance : Prop :=
  ∀ s : State,
    (∀ i, squaredDistance s i =
      ∑ j ∈ Finset.range s.gRows.toNat, (entryAt s.rx j).toInt ^ 2 + s.gRows.toNat * (2 ^ s.cfg.frac) ^ 2 -
        2 * 2 ^ s.cfg.frac * (2 * score s i - ∑ j ∈ Finset.range s.gRows.toNat, (entryAt s.rx j).toInt)) ∧
    (∀ i i', (squaredDistance s i < squaredDistance s i' ↔ score s i > score s i') ∧
      (squaredDistance s i = squaredDistance s i' ↔ score s i = score s i')) ∧
    dec s < 2 ^ s.k.toNat ∧ (∀ i, i < 2 ^ s.k.toNat → squaredDistance s (dec s) ≤ squaredDistance s i) ∧
    ∀ i, i < dec s → squaredDistance s (dec s) < squaredDistance s i

/-- 42_engine_decode.md R186: DEC_WORD is below 2^K after a successful DECODE and after the decode step of a trial of
either command. -/
def Obligations.DecodedWordIsInRange : Prop :=
  ∀ s t : State,
    (exec .decode s = .next t → t.err = 0 → t.decWord.toNat < 2 ^ t.k.toNat) ∧
    (s.pos = .judge → exec .trial s = .next t ∨ exec .sweep s = .next t → t.decWord.toNat < 2 ^ t.k.toNat)

/-- 42_engine_decode.md R187: the noiseless image of a word decodes to the word where enc is one-to-one (the first K
columns are independent), and to the least word with its codeword in any case. -/
def Obligations.NoiselessRoundTripIsExact : Prop :=
  ∀ (s : State) (w : Nat), EngineInv s → s.tableValid = true → w < 2 ^ s.k.toNat →
    (∀ j, j < s.gRows.toNat → (entryAt s.rx j).toInt = amp s.cfg ((enc s w).getLsbD j)) →
    ((∀ a b, a < 2 ^ s.k.toNat → b < 2 ^ s.k.toNat → enc s a = enc s b → a = b) → dec s = w) ∧
    enc s (dec s) = enc s w ∧ ∀ i, i < dec s → enc s i ≠ enc s w

/-- 42_engine_decode.md R188: a zero vector decodes to 0 on any table, and on an engine so does a vector with no positive
score. -/
def Obligations.ZeroAndNegativeVectorsDecodeToZero : Prop :=
  ∀ s : State,
    ((∀ j, j < s.gRows.toNat → (entryAt s.rx j).toInt = 0) → (∀ i, score s i = 0) ∧ dec s = 0) ∧
    (EngineInv s → s.tableValid = true → (∀ i, 1 ≤ i → i < 2 ^ s.k.toNat → score s i ≤ 0) → dec s = 0)

/-! ### The channel and the draws -/

/-- 43_simulation.md R200: noise is the product rounded to the nearest multiple, a tie upwards, with the corner cases. -/
def Obligations.NoiseRoundsToNearest : Prop :=
  ∀ (p : Params) (sigma : Nat) (z : Int), 1 ≤ p.frac →
    2 ^ p.frac * noise p sigma z ≤ sigma * z + 2 ^ (p.frac - 1) ∧
    sigma * z + 2 ^ (p.frac - 1) < 2 ^ p.frac * (noise p sigma z + 1) ∧
    noise p 0 z = 0 ∧ noise p sigma 0 = 0 ∧ noise p (2 ^ p.frac) z = z

/-- 43_simulation.md R201 with 30_encoding.md R120: amplitude plus noise, clamped to the sample range; such a value
stands in RX as itself. -/
def Obligations.ChannelSampleIsClamped : Prop :=
  ∀ (p : Params) (b : Bool) (sigma : Nat) (z : Int), p.wellFormed = true →
    chan p b sigma z =
      max (-2 ^ (p.sampleW - 1)) (min (2 ^ (p.sampleW - 1) - 1) ((if b then 2 ^ p.frac else -2 ^ p.frac) + noise p sigma z)) ∧
    (sampleWord (chan p b sigma z)).toInt = chan p b sigma z

/-- 30_encoding.md R125: a word draw is the low K bits of the answer; a noise draw is its low SAMPLE_W bits read as
two's complement. -/
def Obligations.DrawsAreReducedToWidth : Prop :=
  ∀ (s : State) (d : Word), 1 ≤ s.cfg.sampleW →
    (drawnWord s d).toNat = d.toNat % 2 ^ s.k.toNat ∧
    -2 ^ (s.cfg.sampleW - 1) ≤ drawnNormal s d ∧ drawnNormal s d < 2 ^ (s.cfg.sampleW - 1) ∧
    (2 ^ s.cfg.sampleW : Int) ∣ drawnNormal s d - d.toNat

/-! ### TRIAL -/

/-- 43_simulation.md R204: TRIAL's check comes before any draw is requested. -/
def Obligations.TrialChecksForAnEngine : Prop :=
  ∀ s : State, s.pos = .start →
    (s.tableValid = false → exec .trial s = .next { s with err := 4, done := true, busy := false, phase := .idle }) ∧
    (s.tableValid = true → exec .trial s = .next { s with pos := .drawWord })

/-- 30_encoding.md R125; 43_simulation.md R203: TRIAL and SWEEP request the word, then each coordinate's noise, and hold
in an unchanged state until an answer is there. -/
def Obligations.DrawsAreRequestedAndAwaited : Prop :=
  ∀ (s : State) (i : Instr), i = .trial ∨ i = .sweep →
    (s.pos = .drawWord → exec i s = .next { s with draw := .requested (.uniform s.k.toNat), pos := .takeWord }) ∧
    (∀ j, s.pos = .drawNoise j → exec i s = .next { s with draw := .requested .normal, pos := .takeNoise j }) ∧
    (s.pos = .takeWord ∨ (∃ j, s.pos = .takeNoise j) → (∀ d, s.draw ≠ .answered d) → exec i s = .next s)

/-- 43_simulation.md R203: an answered word request gives WORD and CW; an answered noise request gives RX[j] and
RX_VALID[j], with SIGMA as TRIAL's level and the level s as SWEEP's. -/
def Obligations.AnswersFillWordAndSamples : Prop :=
  ∀ (s : State) (i : Instr) (d : Word), i = .trial ∨ i = .sweep → s.draw = .answered d →
    (s.pos = .takeWord →
      exec i s = .next
        { s with
          draw := .none, word := drawnWord s d, cw := enc s (drawnWord s d).toNat,
          pos := if 0 < s.gRows.toNat then .drawNoise 0 else .judge }) ∧
    ∀ j, s.pos = .takeNoise j →
      exec i s = .next
        { s with
          draw := .none,
          rx := s.rx.set j (sampleWord
            (chan s.cfg (s.cw.getLsbD j) (if i = .trial then s.sigma.toNat else s.level) (drawnNormal s d))),
          rxValid := s.rxValid ||| 1#32 <<< j,
          pos := if j + 1 < s.gRows.toNat then .drawNoise (j + 1) else .judge }

/-- 43_simulation.md R203, R204: TRIAL ends with the decoded word, the error flag, some value in DEC_CYCLES and the
completion; the tallies, SIGMA and RESQ are not touched. -/
def Obligations.TrialEndsWithItsErrorFlag : Prop :=
  ∀ s : State, s.pos = .judge →
    ∃ (cyc : Word) (sc : Scan) (n : Nat),
      exec .trial s = .next
        { s with
          decWord := BitVec.ofNat 32 (dec s), decCycles := cyc, scan := sc, freeCount := n,
          trialErr := decide (dec s ≠ s.word.toNat), err := 0, done := true, busy := false, phase := .idle }

/-- The moves of one trial when the random source answers word u and noises zs, each as soon as it is asked: for each
draw the request, the answer and its taking, then the decode. -/
def Sys2Proof.trialTurns (u : Word) (zs : List Word) : List Move :=
  ((u :: zs).flatMap fun d => [.sequencer, .answer d, .sequencer]) ++ [.sequencer]

/-- 43_simulation.md R203, R204: from its start to its completion TRIAL takes exactly 1 + G_ROWS draws, the word first and
then one per coordinate in ascending order; it leaves the drawn word, its codeword, the noisy samples, the decoded word
and the error flag, and changes nothing else but the positions, DEC_CYCLES and the model's own fields. The list of moves
(log 8) and the number of steps (log 17) are the model's choice, not the spec's. -/
def Obligations.TrialRunsFromStartToFinish : Prop :=
  ∀ (s : State) (u : Word) (zs : List Word), Inv s → s.phase = .run .trial → s.pos = .start → s.tableValid = true →
    zs.length = s.gRows.toNat → s.inputs = .sequencer :: trialTurns u zs →
    ∃ t : State,
      Host.Core.run core (5 + 3 * s.gRows.toNat) s = .next t ∧
      t = { s with
        word := drawnWord s u, cw := enc s (drawnWord s u).toNat, rx := t.rx, rxValid := t.rxValid,
        decWord := BitVec.ofNat 32 (dec t), trialErr := decide (dec t ≠ (drawnWord s u).toNat),
        decCycles := t.decCycles, scan := t.scan, freeCount := t.freeCount, pos := t.pos, inputs := [],
        err := 0, done := true, busy := false, phase := .idle } ∧
      (∀ j, j < s.gRows.toNat →
        entryAt t.rx j = sampleWord (chan s.cfg (t.cw.getLsbD j) s.sigma.toNat (drawnNormal s (entryAt zs j))) ∧
        t.rxValid.getLsbD j = true) ∧
      ∀ j, s.gRows.toNat ≤ j → entryAt t.rx j = entryAt s.rx j ∧ (j < 32 → t.rxValid.getLsbD j = s.rxValid.getLsbD j)

/-! ### SWEEP -/

/-- The bounds that SWEEP refuses (43_simulation.md R205, 60_exceptions.md R241). -/
def Sys2Proof.badSweep (s : State) : Prop :=
  s.sigmaStart.toNat = 0 ∨ s.sigmaEnd.toNat ≤ s.sigmaStart.toNat ∨ s.sigmaStep.toNat = 0 ∨ s.trials.toNat = 0

/-- 43_simulation.md R205, R206: SWEEP refuses without an engine, then bad bounds, before any draw and with nothing else
written; otherwise it begins the level SIGMA_START with tallies 0. -/
def Obligations.SweepChecksThenBegins : Prop :=
  ∀ s : State, s.pos = .start →
    (s.tableValid = false → exec .sweep s = .next { s with err := 4, done := true, busy := false, phase := .idle }) ∧
    (s.tableValid = true → badSweep s →
      exec .sweep s = .next { s with err := 1, done := true, busy := false, phase := .idle }) ∧
    (s.tableValid = true → ¬ badSweep s →
      exec .sweep s = .next
        { s with
          level := s.sigmaStart.toNat, sigma := s.sigmaStart, errCount := 0, trialCount := 0, decCycles := 0,
          pos := .drawWord })

/-- 43_simulation.md R203, R206; 10_state.md R44, R45: the end of a trial of a level counts the trial, and the error when
the decoded word differs; after TRIALS trials the row comes next, else the next trial. -/
def Obligations.SweepTalliesEachTrial : Prop :=
  ∀ s : State, s.pos = .judge →
    ∃ (cyc : Word) (sc : Scan) (n : Nat),
      exec .sweep s = .next
        { s with
          decWord := BitVec.ofNat 32 (dec s), decCycles := cyc, scan := sc, freeCount := n,
          trialErr := decide (dec s ≠ s.word.toNat),
          trialCount := s.trialCount + 1,
          errCount := s.errCount + (if dec s ≠ s.word.toNat then 1 else 0),
          pos := if s.trialCount.toNat + 1 < s.trials.toNat then .drawWord else .push }

/-- 43_simulation.md R207: the row goes to the tail of the queue when there is room, and otherwise the sequencer holds in
an unchanged state. -/
def Obligations.SweepPushesOrHolds : Prop :=
  ∀ s : State, s.pos = .push →
    (s.resq.length < s.cfg.resqDepth →
      exec .sweep s = .next
        { s with
          resq := s.resq ++ [⟨BitVec.ofNat 32 s.level, s.errCount, s.trialCount, s.decCycles⟩], pos := .nextLevel }) ∧
    (s.cfg.resqDepth ≤ s.resq.length → exec .sweep s = .next s)

/-- 43_simulation.md R206: after a row the level grows by SIGMA_STEP without wrap; while it is at most SIGMA_END a level
with tallies 0 begins and SIGMA holds it, and otherwise the sweep completes. -/
def Obligations.SweepAdvancesOrCompletes : Prop :=
  ∀ s : State, s.pos = .nextLevel →
    (s.level + s.sigmaStep.toNat ≤ s.sigmaEnd.toNat →
      ∃ v : Word, v.toNat = s.level + s.sigmaStep.toNat ∧
        exec .sweep s = .next
          { s with
            level := s.level + s.sigmaStep.toNat, sigma := v, errCount := 0, trialCount := 0, decCycles := 0,
            pos := .drawWord }) ∧
    (s.sigmaEnd.toNat < s.level + s.sigmaStep.toNat →
      exec .sweep s = .next
        { s with
          level := s.level + s.sigmaStep.toNat, err := 0, done := true, busy := false, phase := .idle })

/-- The moves of a sweep of L levels of T trials each when trial r of level m is answered word u m r and noises z m r:
the start check, then for each level its trials, the push and the advance. -/
def Sys2Proof.sweepTurns (u : Nat → Nat → Word) (z : Nat → Nat → List Word) (L T : Nat) : List Move :=
  .sequencer :: (List.range L).flatMap fun m =>
    ((List.range T).flatMap fun r => trialTurns (u m r) (z m r)) ++ [.sequencer, .sequencer]

/-- 43_simulation.md R209, R206: a sweep that passes its checks, with room in the queue, runs L levels of TRIALS trials of
1 + G_ROWS draws each, completes, and leaves at the tail of the queue exactly L rows, in the order of the levels
SIGMA_START + m SIGMA_STEP, each with trials = TRIALS and errors ≤ trials; the engine and the bounds stand as before. The list of moves (log 8) and the
number of steps (log 17) are the model's choice, not the spec's. The hold at a full queue is SweepPushesOrHolds, what ends
it RowsLeaveAtTheHead. -/
def Obligations.SweepEmitsOneRowPerLevel : Prop :=
  ∀ (s : State) (u : Nat → Nat → Word) (z : Nat → Nat → List Word) (L : Nat),
    Inv s → s.phase = .run .sweep → s.pos = .start → s.tableValid = true → ¬ badSweep s →
    L = (s.sigmaEnd.toNat - s.sigmaStart.toNat) / s.sigmaStep.toNat + 1 →
    s.resq.length + L ≤ s.cfg.resqDepth →
    (∀ m r, (z m r).length = s.gRows.toNat) →
    s.inputs = sweepTurns u z L s.trials.toNat →
    ∃ (t : State) (rows : List ResultRow),
      Host.Core.run core (1 + L * (s.trials.toNat * (4 + 3 * s.gRows.toNat) + 2)) s = .next t ∧
      t.phase = .idle ∧ t.busy = false ∧ t.done = true ∧ t.err = 0 ∧ t.inputs = [] ∧ t.draw = .none ∧
      t.resq = s.resq ++ rows ∧ rows.length = L ∧
      (∀ m (h : m < rows.length),
        rows[m].sigma.toNat = s.sigmaStart.toNat + m * s.sigmaStep.toNat ∧ rows[m].trials = s.trials ∧
        rows[m].errors.toNat ≤ s.trials.toNat) ∧
      t.gRows = s.gRows ∧ t.gCols = s.gCols ∧ t.k = s.k ∧ t.grow = s.grow ∧ t.gValid = s.gValid ∧ t.cwt = s.cwt ∧
      t.tableValid = true ∧ t.sigmaStart = s.sigmaStart ∧ t.sigmaEnd = s.sigmaEnd ∧ t.sigmaStep = s.sigmaStep ∧
      t.trials = s.trials

/-- An answer is taken up by an outstanding request and ignored without one. This is the model's choice (log 10): the spec
says only that an answer which arrives after a reset is ignored (70_reset_and_hazards.md R272), while the second clause
covers every state without an outstanding request (a second answer, an answer nobody asked for), and the first takes
whatever answer comes as the outstanding request's. -/
def Obligations.AnswerNeedsARequest : Prop :=
  ∀ (s : State) (d : Word),
    (∀ q, s.draw = .requested q → receiveAnswer d s = { s with draw := .answered d }) ∧
    ((∀ q, s.draw ≠ .requested q) → receiveAnswer d s = s)

/-! ### The register window -/

/-- s after a transaction that changed nothing and was answered r. -/
def Sys2Proof.answeredOnly (r : Response) (s : State) : State := { s with responses := s.responses ++ [r] }

/-- 20_memory.md R84, R83: a transaction that is misaligned, narrow or outside 0x000 to 0x1FF (an ill-formed one), and one
to a gap of the window, is answered ERROR with data 0, and nothing changes. -/
def Obligations.MisalignedAndUnmappedAreRefused : Prop :=
  ∀ s : State, s.cfg.wellFormed = true →
    (∀ t : Txn, t.wellFormed = false → hostAccess t s = answeredOnly ⟨.error, 0⟩ s) ∧
    ∀ (a : Nat) (v : Word),
      (0x070 ≤ a ∧ a < 0x080) ∨ (0x080 + 4 * s.cfg.nMax ≤ a ∧ a < 0x100) ∨ 0x100 + 4 * s.cfg.nMax ≤ a →
      hostAccess (.read a 4) s = answeredOnly ⟨.error, 0⟩ s ∧ hostAccess (.write a 4 v) s = answeredOnly ⟨.error, 0⟩ s

/-- 60_exceptions.md R246; 20_memory.md R81, R89: a transaction answered ERROR has data 0 and changes nothing, and a read
never changes anything. -/
def Obligations.RefusalsAndReadsChangeNothing : Prop :=
  ∀ s : State,
    (∀ (t : Txn) (d : Word), (hostAccess t s).responses = s.responses ++ [⟨.error, d⟩] →
      d = 0 ∧ hostAccess t s = answeredOnly ⟨.error, 0⟩ s) ∧
    ∀ a n : Nat, ∃ r : Response, hostAccess (.read a n) s = answeredOnly r s

/-- 20_memory.md R88: while BUSY = 1 the reads of STATUS, PARAM and the RES registers and the write of RES_POP are
admitted, and every other transaction is answered ERROR and changes nothing. -/
def Obligations.BusyAdmitsOnlyStatusAndRows : Prop :=
  ∀ s : State, s.busy = true →
    (∀ a, a ∈ [0x004, 0x008, 0x058, 0x05C, 0x060, 0x064, 0x068] →
      ∃ v, hostAccess (.read a 4) s = answeredOnly ⟨.okay, v⟩ s) ∧
    (∀ a n, a ∉ [0x004, 0x008, 0x058, 0x05C, 0x060, 0x064, 0x068] →
      hostAccess (.read a n) s = answeredOnly ⟨.error, 0⟩ s) ∧
    (∀ v : Word, hostAccess (.write 0x06C 4 v) s =
      answeredOnly ⟨.okay, 0⟩ { s with resq := if v.getLsbD 0 = true then s.resq.tail else s.resq }) ∧
    (∀ a n (v : Word), a ≠ 0x06C → hostAccess (.write a n v) s = answeredOnly ⟨.error, 0⟩ s)

/-- 20_memory.md R86: a write to a read-only register is refused whatever the data; CMD and RES_POP read as 0. -/
def Obligations.AccessRightsAreEnforced : Prop :=
  ∀ (s : State) (v : Word),
    (∀ a, a ∈ [0x004, 0x008, 0x018, 0x01C, 0x024, 0x028, 0x02C, 0x044, 0x048, 0x04C, 0x054, 0x058, 0x05C, 0x060,
        0x064, 0x068] →
      hostAccess (.write a 4 v) s = answeredOnly ⟨.error, 0⟩ s) ∧
    (s.busy = false → hostAccess (.read 0x000 4) s = answeredOnly ⟨.okay, 0⟩ s ∧
      hostAccess (.read 0x06C 4) s = answeredOnly ⟨.okay, 0⟩ s)

/-- 40_container_access.md R147: the plain registers store a value of their width and refuse a wider one with nothing
stored; every register that only holds a value reads as it, with zeros above; while BUSY = 1 all of it is refused. -/
def Obligations.PlainRegistersStoreAndRead : Prop :=
  ∀ (s : State) (v : Word),
    (∀ e ∈ [(0x020, s.cfg.kMax, { s with word := v }), (0x030, s.cfg.sampleW, { s with sigma := v }),
        (0x034, s.cfg.sampleW, { s with sigmaStart := v }), (0x038, s.cfg.sampleW, { s with sigmaEnd := v }),
        (0x03C, s.cfg.sampleW, { s with sigmaStep := v }), (0x040, 32, { s with trials := v }),
        (0x050, s.cfg.kMax, { s with cwtIndex := v })],
      hostAccess (.write e.1 4 v) s =
        if s.busy = false ∧ v.toNat < 2 ^ e.2.1 then answeredOnly ⟨.okay, 0⟩ e.2.2 else answeredOnly ⟨.error, 0⟩ s) ∧
    ∀ e ∈ [(0x00C, BitVec.ofNat 32 s.gRows.toNat), (0x010, BitVec.ofNat 32 s.gCols.toNat),
        (0x014, BitVec.ofNat 32 s.k.toNat), (0x018, s.gValid), (0x01C, s.rxValid), (0x020, s.word), (0x024, s.cw),
        (0x028, s.decWord), (0x02C, if s.trialErr = true then 1 else 0), (0x030, s.sigma), (0x034, s.sigmaStart),
        (0x038, s.sigmaEnd), (0x03C, s.sigmaStep), (0x040, s.trials), (0x044, s.errCount), (0x048, s.trialCount),
        (0x04C, s.decCycles), (0x050, s.cwtIndex)],
      hostAccess (.read e.1 4) s =
        if s.busy = false then answeredOnly ⟨.okay, e.2⟩ s else answeredOnly ⟨.error, 0⟩ s

/-- 40_container_access.md R140, R141: a row write passes the BUSY, width, row and column checks or is refused; accepted it
stores the row, marks it filled and ends the engine. A row reads back only while idle, inside the shape and once filled. -/
def Obligations.RowAccessIsChecked : Prop :=
  ∀ (s : State) (i : Nat) (v : Word), s.cfg.wellFormed = true → i < s.cfg.nMax →
    hostAccess (.write (0x080 + 4 * i) 4 v) s =
      (if s.busy = false ∧ v.toNat < 2 ^ s.cfg.kMax ∧ i < s.gRows.toNat ∧ v.toNat >>> s.gCols.toNat = 0 then
        answeredOnly ⟨.okay, 0⟩
          { s with grow := s.grow.set i v, gValid := s.gValid ||| 1#32 <<< i, tableValid := false }
      else answeredOnly ⟨.error, 0⟩ s) ∧
    hostAccess (.read (0x080 + 4 * i) 4) s =
      if s.busy = false ∧ i < s.gRows.toNat ∧ s.gValid.getLsbD i = true then
        answeredOnly ⟨.okay, entryAt s.grow i⟩ s
      else answeredOnly ⟨.error, 0⟩ s

/-- 40_container_access.md R144, R145: a sample write passes the BUSY, range and index checks or is refused; accepted it
stores the sample and marks it filled, and the engine stays. A sample reads back, sign-extended, only while idle, inside
the vector and once filled. -/
def Obligations.SampleAccessIsChecked : Prop :=
  ∀ (s : State) (j : Nat) (v : Word), s.cfg.wellFormed = true → j < s.cfg.nMax →
    hostAccess (.write (0x100 + 4 * j) 4 v) s =
      (if s.busy = false ∧ -2 ^ (s.cfg.sampleW - 1) ≤ v.toInt ∧ v.toInt ≤ 2 ^ (s.cfg.sampleW - 1) - 1 ∧
          j < s.gRows.toNat then
        answeredOnly ⟨.okay, 0⟩ { s with rx := s.rx.set j v, rxValid := s.rxValid ||| 1#32 <<< j }
      else answeredOnly ⟨.error, 0⟩ s) ∧
    hostAccess (.read (0x100 + 4 * j) 4) s =
      if s.busy = false ∧ j < s.gRows.toNat ∧ s.rxValid.getLsbD j = true then
        answeredOnly ⟨.okay, entryAt s.rx j⟩ s
      else answeredOnly ⟨.error, 0⟩ s

/-- 40_container_access.md R142: a shape write of its width stores the shape, empties both stores and ends the engine;
the stored bits of GROW and RX are whatever they are (log 7). A wider value, or any while BUSY = 1, is refused. -/
def Obligations.ShapeWriteEmptiesTheStores : Prop :=
  ∀ (s : State) (v : Word),
    (∃ (g r : List Word) (n : Nat),
      hostAccess (.write 0x00C 4 v) s =
        if s.busy = false ∧ v.toNat < 64 then
          answeredOnly ⟨.okay, 0⟩
            { s with
              gRows := BitVec.ofNat 6 v.toNat, gValid := 0, rxValid := 0, tableValid := false, grow := g, rx := r,
              freeCount := n }
        else answeredOnly ⟨.error, 0⟩ s) ∧
    ∃ (g r : List Word) (n : Nat),
      hostAccess (.write 0x010 4 v) s =
        if s.busy = false ∧ v.toNat < 32 then
          answeredOnly ⟨.okay, 0⟩
            { s with
              gCols := BitVec.ofNat 5 v.toNat, gValid := 0, rxValid := 0, tableValid := false, grow := g, rx := r,
              freeCount := n }
        else answeredOnly ⟨.error, 0⟩ s

/-- 40_container_access.md R143: a write of K of its width stores it and ends the engine, and touches no store. -/
def Obligations.KWriteEndsTheEngine : Prop :=
  ∀ (s : State) (v : Word),
    hostAccess (.write 0x014 4 v) s =
      if s.busy = false ∧ v.toNat < 32 then
        answeredOnly ⟨.okay, 0⟩ { s with k := BitVec.ofNat 5 v.toNat, tableValid := false }
      else answeredOnly ⟨.error, 0⟩ s

/-- 40_container_access.md R146 with 10_state.md R63: the index write only stores; the table window answers only while
idle, with an engine and inside its 2^K rows, and then with the index's row, which is its codeword. -/
def Obligations.TableWindowShowsTheCodewords : Prop :=
  ∀ (s : State) (v : Word),
    hostAccess (.write 0x050 4 v) s =
      (if s.busy = false ∧ v.toNat < 2 ^ s.cfg.kMax then answeredOnly ⟨.okay, 0⟩ { s with cwtIndex := v }
      else answeredOnly ⟨.error, 0⟩ s) ∧
    hostAccess (.read 0x054 4) s =
      (if s.busy = false ∧ s.tableValid = true ∧ s.cwtIndex.toNat < 2 ^ s.k.toNat then
        answeredOnly ⟨.okay, s.cwt.readRow s.cwtIndex.toNat⟩ s
      else answeredOnly ⟨.error, 0⟩ s) ∧
    (EngineInv s → s.busy = false → s.tableValid = true → s.cwtIndex.toNat < 2 ^ s.k.toNat →
      hostAccess (.read 0x054 4) s = answeredOnly ⟨.okay, enc s s.cwtIndex.toNat⟩ s)

/-- 43_simulation.md R208; 10_state.md R51, R52: at any time, busy or not, a write of RES_POP with bit 0 set removes the
head row, an empty queue stays empty and a write with bit 0 clear does nothing; the RES registers read the queue's length
and its head row, or zeros. The spec gives RES_LEVEL no value where the length does not fit 32 bits, and nothing is said of
it there (log 19). -/
def Obligations.RowsLeaveAtTheHead : Prop :=
  ∀ (s : State) (v : Word),
    hostAccess (.write 0x06C 4 v) s =
      answeredOnly ⟨.okay, 0⟩ (if v.getLsbD 0 = true then { s with resq := s.resq.drop 1 } else s) ∧
    (∃ n : Word, hostAccess (.read 0x058 4) s = answeredOnly ⟨.okay, n⟩ s ∧
      (s.resq.length < 2 ^ 32 → n.toNat = s.resq.length)) ∧
    hostAccess (.read 0x05C 4) s = answeredOnly ⟨.okay, (s.resq.head?.map (·.sigma)).getD 0⟩ s ∧
    hostAccess (.read 0x060 4) s = answeredOnly ⟨.okay, (s.resq.head?.map (·.errors)).getD 0⟩ s ∧
    hostAccess (.read 0x064 4) s = answeredOnly ⟨.okay, (s.resq.head?.map (·.trials)).getD 0⟩ s ∧
    hostAccess (.read 0x068 4) s = answeredOnly ⟨.okay, (s.resq.head?.map (·.cycles)).getD 0⟩ s

/-- 10_state.md R22, R26: STATUS reads bit by bit as its fields, busy or not, and cannot be written. -/
def Obligations.StatusReadsItsFields : Prop :=
  ∀ s : State,
    (∃ v : Word, hostAccess (.read 0x004 4) s = answeredOnly ⟨.okay, v⟩ s ∧
      v.getLsbD 0 = s.busy ∧ v.getLsbD 1 = s.done ∧ v.getLsbD 2 = s.tableValid ∧
      v.getLsbD 3 = decide (s.resq ≠ []) ∧
      v.getLsbD 4 = decide (s.busy = true ∧ s.phase = .run .sweep ∧ s.pos = .push ∧ s.resq.length = s.cfg.resqDepth) ∧
      (v >>> 8).toNat = s.err.toNat ∧ v.getLsbD 5 = false ∧ v.getLsbD 6 = false ∧ v.getLsbD 7 = false) ∧
    ∀ v : Word, hostAccess (.write 0x004 4 v) s = answeredOnly ⟨.error, 0⟩ s

/-- 10_state.md R28: PARAM reads as the parameters, busy or not, and cannot be written; with the defaults it is
0x0A100D14. -/
def Obligations.ParamReadsTheParameters : Prop :=
  (∀ s : State, s.cfg.wellFormed = true →
    (∃ v : Word, hostAccess (.read 0x008 4) s = answeredOnly ⟨.okay, v⟩ s ∧
      v.toNat % 2 ^ 8 = s.cfg.nMax ∧ v.toNat / 2 ^ 8 % 2 ^ 8 = s.cfg.kMax ∧ v.toNat / 2 ^ 16 % 2 ^ 8 = s.cfg.sampleW ∧
      v.toNat / 2 ^ 24 = s.cfg.frac) ∧
    ∀ v : Word, hostAccess (.write 0x008 4 v) s = answeredOnly ⟨.error, 0⟩ s) ∧
  paramWord Params.reference = 0x0A100D14#32

/-! ### Reset and the whole machine -/

/-- 70_reset_and_hazards.md R271, R272; 10_state.md R65: the state after reset, whatever the parameters and the state
before: every register the rule names, no read of a row, a sample or the table, no step of the sequencer, and no answer
taken up. The contents of GROW, RX and CWT are not part of it. -/
def Obligations.ResetLeavesTheResetState : Prop :=
  ∀ s t : State, t = resetCore s →
    (t.cfg = s.cfg ∧ t.busy = false ∧ t.done = false ∧ t.tableValid = false ∧ t.err = 0 ∧ t.gRows = 0 ∧ t.gCols = 0 ∧
      t.k = 0 ∧ t.gValid = 0 ∧ t.rxValid = 0 ∧ t.word = 0 ∧ t.cw = 0 ∧ t.decWord = 0 ∧ t.trialErr = false ∧
      t.sigma = 0 ∧ t.sigmaStart = 0 ∧ t.sigmaEnd = 0 ∧ t.sigmaStep = 0 ∧ t.trials = 0 ∧ t.errCount = 0 ∧
      t.trialCount = 0 ∧ t.decCycles = 0 ∧ t.cwtIndex = 0 ∧ t.resq = [] ∧ t.phase = .idle ∧ t.draw = .none ∧
      statusWord t = 0) ∧
    (∀ a, 0x080 ≤ a ∨ a = 0x054 → hostAccess (.read a 4) t = answeredOnly ⟨.error, 0⟩ t) ∧
    sequencerTurn t = .next t ∧ ∀ d, receiveAnswer d t = t

/-- 00_scope.md R6; 10_state.md R28: no step changes the instance's parameters. -/
def Obligations.ParametersNeverChange : Prop := ∀ s t : State, step s = .next t → t.cfg = s.cfg

/-- 10_state.md R27: only the success completion of BUILD sets TABLE_VALID. -/
def Obligations.OnlyBuildMakesAnEngine : Prop :=
  ∀ s t : State, step s = .next t → s.tableValid = false → t.tableValid = true →
    s.phase = .run .build ∧ t.err = 0 ∧ t.done = true ∧ t.phase = .idle

/-- The step taken is the sequencer's turn (log 8: also where no move is listed). -/
def Sys2Proof.sequencerMoves (s : State) : Prop := s.inputs = [] ∨ ∃ rest, s.inputs = .sequencer :: rest

/-- 10_state.md R49; 20_memory.md R93: only BUILD writes the codeword table, in the one step that completes it without
error and sets TABLE_VALID; no host access, no answer and no other command does. Reset leaves it unspecified (the model's
empty table, log 3). -/
def Obligations.OnlyBuildWritesTheTable : Prop :=
  ∀ s t : State, step s = .next t → t.cwt ≠ s.cwt →
    (s.phase = .run .build ∧ sequencerMoves s ∧ t.phase = .idle ∧ t.err = 0 ∧ t.done = true ∧ t.tableValid = true) ∨
    ∃ rest, s.inputs = .reset :: rest

/-- 43_simulation.md R203: a trial changes no state of the engine: no sequencer step but BUILD's changes the shape, K, the
matrix, its valid bits, the table or TABLE_VALID. -/
def Obligations.CommandsKeepTheEngine : Prop :=
  ∀ (i : Instr) (s t : State), i ≠ .build → exec i s = .next t →
    t.gRows = s.gRows ∧ t.gCols = s.gCols ∧ t.k = s.k ∧ t.grow = s.grow ∧ t.gValid = s.gValid ∧ t.cwt = s.cwt ∧
    t.tableValid = s.tableValid

/-- 10_state.md R50; 20_memory.md R92; 43_simulation.md R207, R208: the queue is first in, first out: a step leaves it
alone but for three cases: the sequencer's turn of a sweep that stands at its row push appends the level's row when there
is room; a write of RES_POP with bit 0 set removes the head; a reset empties it. -/
def Obligations.QueueIsFirstInFirstOut : Prop :=
  ∀ s t : State, step s = .next t →
    t.resq = s.resq ∨
    (s.phase = .run .sweep ∧ s.pos = .push ∧ sequencerMoves s ∧ s.resq.length < s.cfg.resqDepth ∧
      t.resq = s.resq ++ [⟨BitVec.ofNat 32 s.level, s.errCount, s.trialCount, s.decCycles⟩]) ∨
    (∃ (v : Word) (rest : List Move),
      s.inputs = .host (.write 0x06C 4 v) :: rest ∧ v.getLsbD 0 = true ∧ t.resq = s.resq.tail) ∨
    (t.resq = [] ∧ ∃ rest, s.inputs = .reset :: rest)

/-- 10_state.md R63: every step keeps the engine invariant: while TABLE_VALID = 1 the shape and K are legal, the rows are
filled and row i of the table is enc(i). -/
def Obligations.EngineInvariantIsKept : Prop := ∀ s t : State, EngineInv s → step s = .next t → EngineInv t

/-- 10_state.md R23 to R25, R60, R63, R44, R45, R50, R62; 43_simulation.md R209: every step keeps the whole invariant. -/
def Obligations.WholeInvariantIsKept : Prop := ∀ s t : State, Inv s → step s = .next t → Inv t

/-- 70_reset_and_hazards.md R271: the whole invariant holds after reset, for every instance that 00_scope.md R6 allows and
so for the reference instance. Where the spec gives no contents (GROW, RX, CWT) this rests on the model's zeros, log 2
and log 3. -/
def Obligations.ResetMeetsTheWholeInvariant : Prop :=
  (∀ p : Params, p.wellFormed = true → Inv (State.resetFor p)) ∧ Inv State.reset

/-! ### The result fields -/

/-- 43_simulation.md R226 with 00_scope.md R6 (T_CLK > 0): the real level of every queued row is positive, its error rate
lies in [0, 1], its SNR is -20 log10 of the level, and its average duration is 0 exactly where no cycle was counted and
otherwise positive, whatever the clock period. -/
def Obligations.ResultFieldsAreInRange : Prop :=
  ∀ (s : State) (r : ResultRow) (tClk : ClockPeriod), Inv s → r ∈ s.resq →
    0 < sigmaReal s.cfg r ∧ 0 ≤ errorRate r ∧ errorRate r ≤ 1 ∧
    snrDb s.cfg r = -20 * Real.logb 10 (sigmaReal s.cfg r) ∧
    (r.cycles = 0 → avgDuration tClk r = 0) ∧ (r.cycles ≠ 0 → 0 < avgDuration tClk r)
end

