-- ==== Sys2Proof/Laws/Bits.lean ====
section
/-! SUPPORT. Laws/Bits.lean: one lemma per primitive of Machine/Bits.lean that says what it computes. -/

namespace Sys2Proof.Machine
open Sys2Proof

theorem allUpTo_eq_true {n : Nat} {f : Nat → Bool} : allUpTo n f = true ↔ ∀ i, i < n → f i = true := by
  induction n with
  | zero => simp [allUpTo]
  | succ n ih =>
    simp only [allUpTo, Bool.and_eq_true, ih]
    constructor
    · rintro ⟨h, hn⟩ i hi
      rcases Nat.lt_succ_iff_lt_or_eq.mp hi with h' | rfl
      · exact h i h'
      · exact hn
    · intro h
      exact ⟨fun i hi => h i (by omega), h n (by omega)⟩

theorem allUpTo_eq_false {n : Nat} {f : Nat → Bool} : allUpTo n f = false ↔ ∃ i, i < n ∧ f i = false := by
  rw [← Bool.not_eq_true, allUpTo_eq_true]
  push Not
  simp

theorem xorUpTo_congr {n : Nat} {f g : Nat → Bool} (h : ∀ i, i < n → f i = g i) : xorUpTo n f = xorUpTo n g := by
  induction n with
  | zero => rfl
  | succ n ih => simp only [xorUpTo, ih (fun i hi => h i (by omega)), h n (by omega)]

@[simp] theorem xorUpTo_false (n : Nat) : xorUpTo n (fun _ => false) = false := by
  induction n with
  | zero => rfl
  | succ n ih => simp [xorUpTo, ih]

theorem xorUpTo_xor (n : Nat) (f g : Nat → Bool) :
    xorUpTo n (fun i => f i ^^ g i) = (xorUpTo n f ^^ xorUpTo n g) := by
  induction n with
  | zero => rfl
  | succ n ih =>
    simp only [xorUpTo, ih]
    cases xorUpTo n f <;> cases xorUpTo n g <;> cases f n <;> cases g n <;> rfl

/-- Terms past the bound that are 0 may be left out. -/
theorem xorUpTo_extend {n m : Nat} (hnm : n ≤ m) {f : Nat → Bool} (h : ∀ i, n ≤ i → i < m → f i = false) :
    xorUpTo m f = xorUpTo n f := by
  induction m, hnm using Nat.le_induction with
  | base => rfl
  | succ m hm ih => simp [xorUpTo, ih (fun i h1 h2 => h i h1 (by omega)), h m hm (by omega)]

/-- The exclusive or is 1 exactly when an odd number of terms are 1. -/
theorem xorUpTo_eq_odd (n : Nat) (f : Nat → Bool) :
    xorUpTo n f = decide (Odd ((Finset.range n).filter (fun j => f j = true)).card) := by
  induction n with
  | zero => simp [xorUpTo]
  | succ n ih =>
    rw [xorUpTo, ih, Finset.range_add_one, Finset.filter_insert]
    cases hf : f n
    · simp
    · rw [if_pos rfl, Finset.card_insert_of_notMem (by simp)]
      simp only [Nat.odd_add_one, decide_not, Bool.xor_true]

theorem sumUpTo_eq_sum (n : Nat) (f : Nat → Int) : sumUpTo n f = ∑ j ∈ Finset.range n, f j := by
  induction n with
  | zero => rfl
  | succ n ih => rw [sumUpTo, ih, Finset.sum_range_succ]

theorem wordOfBits_getLsbD (n : Nat) (f : Nat → Bool) (i : Nat) (hi : i < 32) :
    (wordOfBits n f).getLsbD i = (decide (i < n) && f i) := by
  induction n with
  | zero => simp [wordOfBits]
  | succ n ih =>
    rw [wordOfBits, BitVec.getLsbD_or, ih]
    rcases Nat.lt_trichotomy i n with h | rfl | h
    · have h0 : (if f n = true then 1#32 <<< n else 0#32).getLsbD i = false := by
        split
        · simp [h]
        · simp
      rw [h0]
      simp [h, Nat.lt_succ_of_lt h]
    · split
      · rename_i hf
        simp [hf, hi]
      · rename_i hf
        simp [hf]
    · have h0 : (if f n = true then 1#32 <<< n else 0#32).getLsbD i = false := by
        split
        · have hne : i - n ≠ 0 := by omega
          have h1 : (1#32).getLsbD (i - n) = false := by
            rw [BitVec.getLsbD_one]
            simp [hne]
          simp [h1]
        · simp
      rw [h0]
      have : ¬ i < n := by omega
      have h2 : ¬ i < n + 1 := by omega
      simp [this, h2]

theorem lowBits_toNat (k : Nat) (v : Word) : (lowBits k v).toNat = v.toNat % 2 ^ k := by
  rw [lowBits, BitVec.toNat_ofNat, Nat.mod_eq_of_lt]
  exact lt_of_le_of_lt (Nat.mod_le _ _) v.isLt

theorem lowBits_lt (k : Nat) (v : Word) : (lowBits k v).toNat < 2 ^ k := by
  rw [lowBits_toNat]
  exact Nat.mod_lt _ (by positivity)

theorem lowBits_getLsbD (k : Nat) (v : Word) (i : Nat) : (lowBits k v).getLsbD i = (decide (i < k) && v.getLsbD i) := by
  rw [BitVec.getLsbD, lowBits_toNat, Nat.testBit_mod_two_pow, BitVec.getLsbD]

theorem setBit_getLsbD (v : Word) (i j : Nat) (hj : j < 32) :
    (setBit v i).getLsbD j = (v.getLsbD j || decide (j = i)) := by
  rw [setBit, BitVec.getLsbD_or]
  congr 1
  rw [BitVec.getLsbD_shiftLeft]
  rcases Nat.lt_trichotomy j i with h | rfl | h
  · simp [h, Nat.ne_of_lt h]
  · simp [hj]
  · have h1 : (1#32).getLsbD (j - i) = false := by
      rw [BitVec.getLsbD_one]
      have : j - i ≠ 0 := by omega
      simp [this]
    have h2 : j ≠ i := by omega
    simp [h1, h2]

/-- A signed reading of w bits lies in the signed range of w bits. -/
theorem signedLow_range {w : Nat} (hw : 1 ≤ w) (v : Word) :
    -2 ^ (w - 1) ≤ signedLow w v ∧ signedLow w v ≤ 2 ^ (w - 1) - 1 := by
  obtain ⟨u, rfl⟩ : ∃ u, w = u + 1 := ⟨w - 1, by omega⟩
  have hlt : v.toNat % 2 ^ (u + 1) < 2 ^ (u + 1) := Nat.mod_lt _ (by positivity)
  have hpow : (2 : Nat) ^ (u + 1) = 2 * 2 ^ u := by ring
  have hpowi : (2 : Int) ^ (u + 1) = 2 * 2 ^ u := by ring
  have hcast : ((2 ^ u : Nat) : Int) = 2 ^ u := by norm_cast
  unfold signedLow
  simp only [Nat.add_sub_cancel]
  split <;> constructor <;> zify at * <;> omega

end Sys2Proof.Machine
end

