-- ==== Sys2Proof/Laws/State.lean ====
section
/-! SUPPORT. Laws/State.lean: one lemma per field for each named update of Machine/Ops.lean: what the field holds after it. -/

namespace Sys2Proof.Machine
open Sys2Proof

section
variable (s : State) (c : BitVec 4)

@[simp] theorem complete_cfg : (complete c s).cfg = s.cfg := rfl
@[simp] theorem complete_busy : (complete c s).busy = false := rfl
@[simp] theorem complete_done : (complete c s).done = true := rfl
@[simp] theorem complete_tableValid : (complete c s).tableValid = s.tableValid := rfl
@[simp] theorem complete_err : (complete c s).err = c := rfl
@[simp] theorem complete_gRows : (complete c s).gRows = s.gRows := rfl
@[simp] theorem complete_gCols : (complete c s).gCols = s.gCols := rfl
@[simp] theorem complete_k : (complete c s).k = s.k := rfl
@[simp] theorem complete_grow : (complete c s).grow = s.grow := rfl
@[simp] theorem complete_gValid : (complete c s).gValid = s.gValid := rfl
@[simp] theorem complete_word : (complete c s).word = s.word := rfl
@[simp] theorem complete_cw : (complete c s).cw = s.cw := rfl
@[simp] theorem complete_decWord : (complete c s).decWord = s.decWord := rfl
@[simp] theorem complete_trialErr : (complete c s).trialErr = s.trialErr := rfl
@[simp] theorem complete_rx : (complete c s).rx = s.rx := rfl
@[simp] theorem complete_rxValid : (complete c s).rxValid = s.rxValid := rfl
@[simp] theorem complete_sigma : (complete c s).sigma = s.sigma := rfl
@[simp] theorem complete_sigmaStart : (complete c s).sigmaStart = s.sigmaStart := rfl
@[simp] theorem complete_sigmaEnd : (complete c s).sigmaEnd = s.sigmaEnd := rfl
@[simp] theorem complete_sigmaStep : (complete c s).sigmaStep = s.sigmaStep := rfl
@[simp] theorem complete_trials : (complete c s).trials = s.trials := rfl
@[simp] theorem complete_errCount : (complete c s).errCount = s.errCount := rfl
@[simp] theorem complete_trialCount : (complete c s).trialCount = s.trialCount := rfl
@[simp] theorem complete_decCycles : (complete c s).decCycles = s.decCycles := rfl
@[simp] theorem complete_cwtIndex : (complete c s).cwtIndex = s.cwtIndex := rfl
@[simp] theorem complete_cwt : (complete c s).cwt = s.cwt := rfl
@[simp] theorem complete_resq : (complete c s).resq = s.resq := rfl
@[simp] theorem complete_phase : (complete c s).phase = .idle := rfl
@[simp] theorem complete_pos : (complete c s).pos = s.pos := rfl
@[simp] theorem complete_level : (complete c s).level = s.level := rfl
@[simp] theorem complete_scan : (complete c s).scan = s.scan := rfl
@[simp] theorem complete_draw : (complete c s).draw = s.draw := rfl
@[simp] theorem complete_inputs : (complete c s).inputs = s.inputs := rfl
@[simp] theorem complete_responses : (complete c s).responses = s.responses := rfl
@[simp] theorem complete_freeCount : (complete c s).freeCount = s.freeCount := rfl

end

section
variable (s : State) (w : Word)

@[simp] theorem startCommand_cfg : (startCommand w s).cfg = s.cfg := rfl
@[simp] theorem startCommand_busy : (startCommand w s).busy = true := rfl
@[simp] theorem startCommand_done : (startCommand w s).done = false := rfl
@[simp] theorem startCommand_tableValid : (startCommand w s).tableValid = if decode w = .build then false else s.tableValid := rfl
@[simp] theorem startCommand_err : (startCommand w s).err = 0 := rfl
@[simp] theorem startCommand_gRows : (startCommand w s).gRows = s.gRows := rfl
@[simp] theorem startCommand_gCols : (startCommand w s).gCols = s.gCols := rfl
@[simp] theorem startCommand_k : (startCommand w s).k = s.k := rfl
@[simp] theorem startCommand_grow : (startCommand w s).grow = s.grow := rfl
@[simp] theorem startCommand_gValid : (startCommand w s).gValid = s.gValid := rfl
@[simp] theorem startCommand_word : (startCommand w s).word = s.word := rfl
@[simp] theorem startCommand_cw : (startCommand w s).cw = s.cw := rfl
@[simp] theorem startCommand_decWord : (startCommand w s).decWord = s.decWord := rfl
@[simp] theorem startCommand_trialErr : (startCommand w s).trialErr = s.trialErr := rfl
@[simp] theorem startCommand_rx : (startCommand w s).rx = s.rx := rfl
@[simp] theorem startCommand_rxValid : (startCommand w s).rxValid = s.rxValid := rfl
@[simp] theorem startCommand_sigma : (startCommand w s).sigma = s.sigma := rfl
@[simp] theorem startCommand_sigmaStart : (startCommand w s).sigmaStart = s.sigmaStart := rfl
@[simp] theorem startCommand_sigmaEnd : (startCommand w s).sigmaEnd = s.sigmaEnd := rfl
@[simp] theorem startCommand_sigmaStep : (startCommand w s).sigmaStep = s.sigmaStep := rfl
@[simp] theorem startCommand_trials : (startCommand w s).trials = s.trials := rfl
@[simp] theorem startCommand_errCount : (startCommand w s).errCount = s.errCount := rfl
@[simp] theorem startCommand_trialCount : (startCommand w s).trialCount = s.trialCount := rfl
@[simp] theorem startCommand_decCycles : (startCommand w s).decCycles = s.decCycles := rfl
@[simp] theorem startCommand_cwtIndex : (startCommand w s).cwtIndex = s.cwtIndex := rfl
@[simp] theorem startCommand_cwt : (startCommand w s).cwt = s.cwt := rfl
@[simp] theorem startCommand_resq : (startCommand w s).resq = s.resq := rfl
@[simp] theorem startCommand_phase : (startCommand w s).phase = .run (decode w) := rfl
@[simp] theorem startCommand_pos : (startCommand w s).pos = .start := rfl
@[simp] theorem startCommand_level : (startCommand w s).level = s.level := rfl
@[simp] theorem startCommand_scan : (startCommand w s).scan = s.scan := rfl
@[simp] theorem startCommand_draw : (startCommand w s).draw = s.draw := rfl
@[simp] theorem startCommand_inputs : (startCommand w s).inputs = s.inputs := rfl
@[simp] theorem startCommand_responses : (startCommand w s).responses = s.responses := rfl
@[simp] theorem startCommand_freeCount : (startCommand w s).freeCount = s.freeCount := rfl

end

section
variable (s : State) (q : DrawKind) (n : Pos)

@[simp] theorem requestDraw_cfg : (requestDraw q n s).cfg = s.cfg := rfl
@[simp] theorem requestDraw_busy : (requestDraw q n s).busy = s.busy := rfl
@[simp] theorem requestDraw_done : (requestDraw q n s).done = s.done := rfl
@[simp] theorem requestDraw_tableValid : (requestDraw q n s).tableValid = s.tableValid := rfl
@[simp] theorem requestDraw_err : (requestDraw q n s).err = s.err := rfl
@[simp] theorem requestDraw_gRows : (requestDraw q n s).gRows = s.gRows := rfl
@[simp] theorem requestDraw_gCols : (requestDraw q n s).gCols = s.gCols := rfl
@[simp] theorem requestDraw_k : (requestDraw q n s).k = s.k := rfl
@[simp] theorem requestDraw_grow : (requestDraw q n s).grow = s.grow := rfl
@[simp] theorem requestDraw_gValid : (requestDraw q n s).gValid = s.gValid := rfl
@[simp] theorem requestDraw_word : (requestDraw q n s).word = s.word := rfl
@[simp] theorem requestDraw_cw : (requestDraw q n s).cw = s.cw := rfl
@[simp] theorem requestDraw_decWord : (requestDraw q n s).decWord = s.decWord := rfl
@[simp] theorem requestDraw_trialErr : (requestDraw q n s).trialErr = s.trialErr := rfl
@[simp] theorem requestDraw_rx : (requestDraw q n s).rx = s.rx := rfl
@[simp] theorem requestDraw_rxValid : (requestDraw q n s).rxValid = s.rxValid := rfl
@[simp] theorem requestDraw_sigma : (requestDraw q n s).sigma = s.sigma := rfl
@[simp] theorem requestDraw_sigmaStart : (requestDraw q n s).sigmaStart = s.sigmaStart := rfl
@[simp] theorem requestDraw_sigmaEnd : (requestDraw q n s).sigmaEnd = s.sigmaEnd := rfl
@[simp] theorem requestDraw_sigmaStep : (requestDraw q n s).sigmaStep = s.sigmaStep := rfl
@[simp] theorem requestDraw_trials : (requestDraw q n s).trials = s.trials := rfl
@[simp] theorem requestDraw_errCount : (requestDraw q n s).errCount = s.errCount := rfl
@[simp] theorem requestDraw_trialCount : (requestDraw q n s).trialCount = s.trialCount := rfl
@[simp] theorem requestDraw_decCycles : (requestDraw q n s).decCycles = s.decCycles := rfl
@[simp] theorem requestDraw_cwtIndex : (requestDraw q n s).cwtIndex = s.cwtIndex := rfl
@[simp] theorem requestDraw_cwt : (requestDraw q n s).cwt = s.cwt := rfl
@[simp] theorem requestDraw_resq : (requestDraw q n s).resq = s.resq := rfl
@[simp] theorem requestDraw_phase : (requestDraw q n s).phase = s.phase := rfl
@[simp] theorem requestDraw_pos : (requestDraw q n s).pos = n := rfl
@[simp] theorem requestDraw_level : (requestDraw q n s).level = s.level := rfl
@[simp] theorem requestDraw_scan : (requestDraw q n s).scan = s.scan := rfl
@[simp] theorem requestDraw_draw : (requestDraw q n s).draw = .requested q := rfl
@[simp] theorem requestDraw_inputs : (requestDraw q n s).inputs = s.inputs := rfl
@[simp] theorem requestDraw_responses : (requestDraw q n s).responses = s.responses := rfl
@[simp] theorem requestDraw_freeCount : (requestDraw q n s).freeCount = s.freeCount := rfl

end

section
variable (s : State) (r : ResultRow)

@[simp] theorem appendRow_cfg : (appendRow r s).cfg = s.cfg := rfl
@[simp] theorem appendRow_busy : (appendRow r s).busy = s.busy := rfl
@[simp] theorem appendRow_done : (appendRow r s).done = s.done := rfl
@[simp] theorem appendRow_tableValid : (appendRow r s).tableValid = s.tableValid := rfl
@[simp] theorem appendRow_err : (appendRow r s).err = s.err := rfl
@[simp] theorem appendRow_gRows : (appendRow r s).gRows = s.gRows := rfl
@[simp] theorem appendRow_gCols : (appendRow r s).gCols = s.gCols := rfl
@[simp] theorem appendRow_k : (appendRow r s).k = s.k := rfl
@[simp] theorem appendRow_grow : (appendRow r s).grow = s.grow := rfl
@[simp] theorem appendRow_gValid : (appendRow r s).gValid = s.gValid := rfl
@[simp] theorem appendRow_word : (appendRow r s).word = s.word := rfl
@[simp] theorem appendRow_cw : (appendRow r s).cw = s.cw := rfl
@[simp] theorem appendRow_decWord : (appendRow r s).decWord = s.decWord := rfl
@[simp] theorem appendRow_trialErr : (appendRow r s).trialErr = s.trialErr := rfl
@[simp] theorem appendRow_rx : (appendRow r s).rx = s.rx := rfl
@[simp] theorem appendRow_rxValid : (appendRow r s).rxValid = s.rxValid := rfl
@[simp] theorem appendRow_sigma : (appendRow r s).sigma = s.sigma := rfl
@[simp] theorem appendRow_sigmaStart : (appendRow r s).sigmaStart = s.sigmaStart := rfl
@[simp] theorem appendRow_sigmaEnd : (appendRow r s).sigmaEnd = s.sigmaEnd := rfl
@[simp] theorem appendRow_sigmaStep : (appendRow r s).sigmaStep = s.sigmaStep := rfl
@[simp] theorem appendRow_trials : (appendRow r s).trials = s.trials := rfl
@[simp] theorem appendRow_errCount : (appendRow r s).errCount = s.errCount := rfl
@[simp] theorem appendRow_trialCount : (appendRow r s).trialCount = s.trialCount := rfl
@[simp] theorem appendRow_decCycles : (appendRow r s).decCycles = s.decCycles := rfl
@[simp] theorem appendRow_cwtIndex : (appendRow r s).cwtIndex = s.cwtIndex := rfl
@[simp] theorem appendRow_cwt : (appendRow r s).cwt = s.cwt := rfl
@[simp] theorem appendRow_resq : (appendRow r s).resq = s.resq ++ [r] := rfl
@[simp] theorem appendRow_phase : (appendRow r s).phase = s.phase := rfl
@[simp] theorem appendRow_pos : (appendRow r s).pos = s.pos := rfl
@[simp] theorem appendRow_level : (appendRow r s).level = s.level := rfl
@[simp] theorem appendRow_scan : (appendRow r s).scan = s.scan := rfl
@[simp] theorem appendRow_draw : (appendRow r s).draw = s.draw := rfl
@[simp] theorem appendRow_inputs : (appendRow r s).inputs = s.inputs := rfl
@[simp] theorem appendRow_responses : (appendRow r s).responses = s.responses := rfl
@[simp] theorem appendRow_freeCount : (appendRow r s).freeCount = s.freeCount := rfl

end

section
variable (s : State)

@[simp] theorem popRow_cfg : (popRow s).cfg = s.cfg := rfl
@[simp] theorem popRow_busy : (popRow s).busy = s.busy := rfl
@[simp] theorem popRow_done : (popRow s).done = s.done := rfl
@[simp] theorem popRow_tableValid : (popRow s).tableValid = s.tableValid := rfl
@[simp] theorem popRow_err : (popRow s).err = s.err := rfl
@[simp] theorem popRow_gRows : (popRow s).gRows = s.gRows := rfl
@[simp] theorem popRow_gCols : (popRow s).gCols = s.gCols := rfl
@[simp] theorem popRow_k : (popRow s).k = s.k := rfl
@[simp] theorem popRow_grow : (popRow s).grow = s.grow := rfl
@[simp] theorem popRow_gValid : (popRow s).gValid = s.gValid := rfl
@[simp] theorem popRow_word : (popRow s).word = s.word := rfl
@[simp] theorem popRow_cw : (popRow s).cw = s.cw := rfl
@[simp] theorem popRow_decWord : (popRow s).decWord = s.decWord := rfl
@[simp] theorem popRow_trialErr : (popRow s).trialErr = s.trialErr := rfl
@[simp] theorem popRow_rx : (popRow s).rx = s.rx := rfl
@[simp] theorem popRow_rxValid : (popRow s).rxValid = s.rxValid := rfl
@[simp] theorem popRow_sigma : (popRow s).sigma = s.sigma := rfl
@[simp] theorem popRow_sigmaStart : (popRow s).sigmaStart = s.sigmaStart := rfl
@[simp] theorem popRow_sigmaEnd : (popRow s).sigmaEnd = s.sigmaEnd := rfl
@[simp] theorem popRow_sigmaStep : (popRow s).sigmaStep = s.sigmaStep := rfl
@[simp] theorem popRow_trials : (popRow s).trials = s.trials := rfl
@[simp] theorem popRow_errCount : (popRow s).errCount = s.errCount := rfl
@[simp] theorem popRow_trialCount : (popRow s).trialCount = s.trialCount := rfl
@[simp] theorem popRow_decCycles : (popRow s).decCycles = s.decCycles := rfl
@[simp] theorem popRow_cwtIndex : (popRow s).cwtIndex = s.cwtIndex := rfl
@[simp] theorem popRow_cwt : (popRow s).cwt = s.cwt := rfl
@[simp] theorem popRow_resq : (popRow s).resq = s.resq.tail := rfl
@[simp] theorem popRow_phase : (popRow s).phase = s.phase := rfl
@[simp] theorem popRow_pos : (popRow s).pos = s.pos := rfl
@[simp] theorem popRow_level : (popRow s).level = s.level := rfl
@[simp] theorem popRow_scan : (popRow s).scan = s.scan := rfl
@[simp] theorem popRow_draw : (popRow s).draw = s.draw := rfl
@[simp] theorem popRow_inputs : (popRow s).inputs = s.inputs := rfl
@[simp] theorem popRow_responses : (popRow s).responses = s.responses := rfl
@[simp] theorem popRow_freeCount : (popRow s).freeCount = s.freeCount := rfl

end

section
variable (s : State)

@[simp] theorem giveTurn_cfg : (giveTurn s).cfg = s.cfg := rfl
@[simp] theorem giveTurn_busy : (giveTurn s).busy = s.busy := rfl
@[simp] theorem giveTurn_done : (giveTurn s).done = s.done := rfl
@[simp] theorem giveTurn_tableValid : (giveTurn s).tableValid = s.tableValid := rfl
@[simp] theorem giveTurn_err : (giveTurn s).err = s.err := rfl
@[simp] theorem giveTurn_gRows : (giveTurn s).gRows = s.gRows := rfl
@[simp] theorem giveTurn_gCols : (giveTurn s).gCols = s.gCols := rfl
@[simp] theorem giveTurn_k : (giveTurn s).k = s.k := rfl
@[simp] theorem giveTurn_grow : (giveTurn s).grow = s.grow := rfl
@[simp] theorem giveTurn_gValid : (giveTurn s).gValid = s.gValid := rfl
@[simp] theorem giveTurn_word : (giveTurn s).word = s.word := rfl
@[simp] theorem giveTurn_cw : (giveTurn s).cw = s.cw := rfl
@[simp] theorem giveTurn_decWord : (giveTurn s).decWord = s.decWord := rfl
@[simp] theorem giveTurn_trialErr : (giveTurn s).trialErr = s.trialErr := rfl
@[simp] theorem giveTurn_rx : (giveTurn s).rx = s.rx := rfl
@[simp] theorem giveTurn_rxValid : (giveTurn s).rxValid = s.rxValid := rfl
@[simp] theorem giveTurn_sigma : (giveTurn s).sigma = s.sigma := rfl
@[simp] theorem giveTurn_sigmaStart : (giveTurn s).sigmaStart = s.sigmaStart := rfl
@[simp] theorem giveTurn_sigmaEnd : (giveTurn s).sigmaEnd = s.sigmaEnd := rfl
@[simp] theorem giveTurn_sigmaStep : (giveTurn s).sigmaStep = s.sigmaStep := rfl
@[simp] theorem giveTurn_trials : (giveTurn s).trials = s.trials := rfl
@[simp] theorem giveTurn_errCount : (giveTurn s).errCount = s.errCount := rfl
@[simp] theorem giveTurn_trialCount : (giveTurn s).trialCount = s.trialCount := rfl
@[simp] theorem giveTurn_decCycles : (giveTurn s).decCycles = s.decCycles := rfl
@[simp] theorem giveTurn_cwtIndex : (giveTurn s).cwtIndex = s.cwtIndex := rfl
@[simp] theorem giveTurn_cwt : (giveTurn s).cwt = s.cwt := rfl
@[simp] theorem giveTurn_resq : (giveTurn s).resq = s.resq := rfl
@[simp] theorem giveTurn_phase : (giveTurn s).phase = s.phase := rfl
@[simp] theorem giveTurn_pos : (giveTurn s).pos = s.pos := rfl
@[simp] theorem giveTurn_level : (giveTurn s).level = s.level := rfl
@[simp] theorem giveTurn_scan : (giveTurn s).scan = s.scan := rfl
@[simp] theorem giveTurn_draw : (giveTurn s).draw = s.draw := rfl
@[simp] theorem giveTurn_responses : (giveTurn s).responses = s.responses := rfl
@[simp] theorem giveTurn_freeCount : (giveTurn s).freeCount = s.freeCount := rfl

end

section
variable (s : State)

@[simp] theorem emptyStores_cfg : (emptyStores s).cfg = s.cfg := rfl
@[simp] theorem emptyStores_busy : (emptyStores s).busy = s.busy := rfl
@[simp] theorem emptyStores_done : (emptyStores s).done = s.done := rfl
@[simp] theorem emptyStores_tableValid : (emptyStores s).tableValid = false := rfl
@[simp] theorem emptyStores_err : (emptyStores s).err = s.err := rfl
@[simp] theorem emptyStores_gRows : (emptyStores s).gRows = s.gRows := rfl
@[simp] theorem emptyStores_gCols : (emptyStores s).gCols = s.gCols := rfl
@[simp] theorem emptyStores_k : (emptyStores s).k = s.k := rfl
@[simp] theorem emptyStores_gValid : (emptyStores s).gValid = 0 := rfl
@[simp] theorem emptyStores_word : (emptyStores s).word = s.word := rfl
@[simp] theorem emptyStores_cw : (emptyStores s).cw = s.cw := rfl
@[simp] theorem emptyStores_decWord : (emptyStores s).decWord = s.decWord := rfl
@[simp] theorem emptyStores_trialErr : (emptyStores s).trialErr = s.trialErr := rfl
@[simp] theorem emptyStores_rxValid : (emptyStores s).rxValid = 0 := rfl
@[simp] theorem emptyStores_sigma : (emptyStores s).sigma = s.sigma := rfl
@[simp] theorem emptyStores_sigmaStart : (emptyStores s).sigmaStart = s.sigmaStart := rfl
@[simp] theorem emptyStores_sigmaEnd : (emptyStores s).sigmaEnd = s.sigmaEnd := rfl
@[simp] theorem emptyStores_sigmaStep : (emptyStores s).sigmaStep = s.sigmaStep := rfl
@[simp] theorem emptyStores_trials : (emptyStores s).trials = s.trials := rfl
@[simp] theorem emptyStores_errCount : (emptyStores s).errCount = s.errCount := rfl
@[simp] theorem emptyStores_trialCount : (emptyStores s).trialCount = s.trialCount := rfl
@[simp] theorem emptyStores_decCycles : (emptyStores s).decCycles = s.decCycles := rfl
@[simp] theorem emptyStores_cwtIndex : (emptyStores s).cwtIndex = s.cwtIndex := rfl
@[simp] theorem emptyStores_cwt : (emptyStores s).cwt = s.cwt := rfl
@[simp] theorem emptyStores_resq : (emptyStores s).resq = s.resq := rfl
@[simp] theorem emptyStores_phase : (emptyStores s).phase = s.phase := rfl
@[simp] theorem emptyStores_pos : (emptyStores s).pos = s.pos := rfl
@[simp] theorem emptyStores_level : (emptyStores s).level = s.level := rfl
@[simp] theorem emptyStores_scan : (emptyStores s).scan = s.scan := rfl
@[simp] theorem emptyStores_draw : (emptyStores s).draw = s.draw := rfl
@[simp] theorem emptyStores_inputs : (emptyStores s).inputs = s.inputs := rfl
@[simp] theorem emptyStores_responses : (emptyStores s).responses = s.responses := rfl
@[simp] theorem emptyStores_freeCount : (emptyStores s).freeCount = s.freeCount + 1 := rfl

end

/-- RES_LEVEL counts the queue wherever its 32 bits can. -/
theorem queueLevel_toNat {s : State} (h : s.resq.length < 2 ^ 32) : (queueLevel s).toNat = s.resq.length := by
  rw [queueLevel, if_pos h, BitVec.toNat_ofNat, Nat.mod_eq_of_lt h]

end Sys2Proof.Machine
end

