-- ==== Sys2Proof/Laws/Updates.lean ====
section
/-! SUPPORT. Laws/Updates.lean: one lemma per field for each named update of Machine/Engine.lean, Machine/Simulation.lean
and Machine/Bus.lean: what the field holds after it. -/

namespace Sys2Proof.Machine
open Sys2Proof

section
variable (s : State)

@[simp] theorem decodeStep_cfg : (decodeStep s).cfg = s.cfg := rfl
@[simp] theorem decodeStep_busy : (decodeStep s).busy = s.busy := rfl
@[simp] theorem decodeStep_done : (decodeStep s).done = s.done := rfl
@[simp] theorem decodeStep_tableValid : (decodeStep s).tableValid = s.tableValid := rfl
@[simp] theorem decodeStep_err : (decodeStep s).err = s.err := rfl
@[simp] theorem decodeStep_gRows : (decodeStep s).gRows = s.gRows := rfl
@[simp] theorem decodeStep_gCols : (decodeStep s).gCols = s.gCols := rfl
@[simp] theorem decodeStep_k : (decodeStep s).k = s.k := rfl
@[simp] theorem decodeStep_grow : (decodeStep s).grow = s.grow := rfl
@[simp] theorem decodeStep_gValid : (decodeStep s).gValid = s.gValid := rfl
@[simp] theorem decodeStep_word : (decodeStep s).word = s.word := rfl
@[simp] theorem decodeStep_cw : (decodeStep s).cw = s.cw := rfl
@[simp] theorem decodeStep_decWord : (decodeStep s).decWord = BitVec.ofNat 32 (dec s) := rfl
@[simp] theorem decodeStep_trialErr : (decodeStep s).trialErr = s.trialErr := rfl
@[simp] theorem decodeStep_rx : (decodeStep s).rx = s.rx := rfl
@[simp] theorem decodeStep_rxValid : (decodeStep s).rxValid = s.rxValid := rfl
@[simp] theorem decodeStep_sigma : (decodeStep s).sigma = s.sigma := rfl
@[simp] theorem decodeStep_sigmaStart : (decodeStep s).sigmaStart = s.sigmaStart := rfl
@[simp] theorem decodeStep_sigmaEnd : (decodeStep s).sigmaEnd = s.sigmaEnd := rfl
@[simp] theorem decodeStep_sigmaStep : (decodeStep s).sigmaStep = s.sigmaStep := rfl
@[simp] theorem decodeStep_trials : (decodeStep s).trials = s.trials := rfl
@[simp] theorem decodeStep_errCount : (decodeStep s).errCount = s.errCount := rfl
@[simp] theorem decodeStep_trialCount : (decodeStep s).trialCount = s.trialCount := rfl
@[simp] theorem decodeStep_decCycles : (decodeStep s).decCycles = Config.freeCycles s.freeCount := rfl
@[simp] theorem decodeStep_cwtIndex : (decodeStep s).cwtIndex = s.cwtIndex := rfl
@[simp] theorem decodeStep_cwt : (decodeStep s).cwt = s.cwt := rfl
@[simp] theorem decodeStep_resq : (decodeStep s).resq = s.resq := rfl
@[simp] theorem decodeStep_phase : (decodeStep s).phase = s.phase := rfl
@[simp] theorem decodeStep_pos : (decodeStep s).pos = s.pos := rfl
@[simp] theorem decodeStep_level : (decodeStep s).level = s.level := rfl
@[simp] theorem decodeStep_scan : (decodeStep s).scan = scanAll s := rfl
@[simp] theorem decodeStep_draw : (decodeStep s).draw = s.draw := rfl
@[simp] theorem decodeStep_inputs : (decodeStep s).inputs = s.inputs := rfl
@[simp] theorem decodeStep_responses : (decodeStep s).responses = s.responses := rfl
@[simp] theorem decodeStep_freeCount : (decodeStep s).freeCount = s.freeCount + 1 := rfl

end

section
variable (s : State) (d : Word)

@[simp] theorem takeWord_cfg : (takeWord d s).cfg = s.cfg := rfl
@[simp] theorem takeWord_busy : (takeWord d s).busy = s.busy := rfl
@[simp] theorem takeWord_done : (takeWord d s).done = s.done := rfl
@[simp] theorem takeWord_tableValid : (takeWord d s).tableValid = s.tableValid := rfl
@[simp] theorem takeWord_err : (takeWord d s).err = s.err := rfl
@[simp] theorem takeWord_gRows : (takeWord d s).gRows = s.gRows := rfl
@[simp] theorem takeWord_gCols : (takeWord d s).gCols = s.gCols := rfl
@[simp] theorem takeWord_k : (takeWord d s).k = s.k := rfl
@[simp] theorem takeWord_grow : (takeWord d s).grow = s.grow := rfl
@[simp] theorem takeWord_gValid : (takeWord d s).gValid = s.gValid := rfl
@[simp] theorem takeWord_word : (takeWord d s).word = drawnWord s d := rfl
@[simp] theorem takeWord_cw : (takeWord d s).cw = enc s (drawnWord s d).toNat := rfl
@[simp] theorem takeWord_decWord : (takeWord d s).decWord = s.decWord := rfl
@[simp] theorem takeWord_trialErr : (takeWord d s).trialErr = s.trialErr := rfl
@[simp] theorem takeWord_rx : (takeWord d s).rx = s.rx := rfl
@[simp] theorem takeWord_rxValid : (takeWord d s).rxValid = s.rxValid := rfl
@[simp] theorem takeWord_sigma : (takeWord d s).sigma = s.sigma := rfl
@[simp] theorem takeWord_sigmaStart : (takeWord d s).sigmaStart = s.sigmaStart := rfl
@[simp] theorem takeWord_sigmaEnd : (takeWord d s).sigmaEnd = s.sigmaEnd := rfl
@[simp] theorem takeWord_sigmaStep : (takeWord d s).sigmaStep = s.sigmaStep := rfl
@[simp] theorem takeWord_trials : (takeWord d s).trials = s.trials := rfl
@[simp] theorem takeWord_errCount : (takeWord d s).errCount = s.errCount := rfl
@[simp] theorem takeWord_trialCount : (takeWord d s).trialCount = s.trialCount := rfl
@[simp] theorem takeWord_decCycles : (takeWord d s).decCycles = s.decCycles := rfl
@[simp] theorem takeWord_cwtIndex : (takeWord d s).cwtIndex = s.cwtIndex := rfl
@[simp] theorem takeWord_cwt : (takeWord d s).cwt = s.cwt := rfl
@[simp] theorem takeWord_resq : (takeWord d s).resq = s.resq := rfl
@[simp] theorem takeWord_phase : (takeWord d s).phase = s.phase := rfl
@[simp] theorem takeWord_pos : (takeWord d s).pos = nextCoordinate s 0 := rfl
@[simp] theorem takeWord_level : (takeWord d s).level = s.level := rfl
@[simp] theorem takeWord_scan : (takeWord d s).scan = s.scan := rfl
@[simp] theorem takeWord_draw : (takeWord d s).draw = .none := rfl
@[simp] theorem takeWord_inputs : (takeWord d s).inputs = s.inputs := rfl
@[simp] theorem takeWord_responses : (takeWord d s).responses = s.responses := rfl
@[simp] theorem takeWord_freeCount : (takeWord d s).freeCount = s.freeCount := rfl

end

section
variable (s : State) (n j : Nat) (d : Word)

@[simp] theorem takeNoise_cfg : (takeNoise n j d s).cfg = s.cfg := rfl
@[simp] theorem takeNoise_busy : (takeNoise n j d s).busy = s.busy := rfl
@[simp] theorem takeNoise_done : (takeNoise n j d s).done = s.done := rfl
@[simp] theorem takeNoise_tableValid : (takeNoise n j d s).tableValid = s.tableValid := rfl
@[simp] theorem takeNoise_err : (takeNoise n j d s).err = s.err := rfl
@[simp] theorem takeNoise_gRows : (takeNoise n j d s).gRows = s.gRows := rfl
@[simp] theorem takeNoise_gCols : (takeNoise n j d s).gCols = s.gCols := rfl
@[simp] theorem takeNoise_k : (takeNoise n j d s).k = s.k := rfl
@[simp] theorem takeNoise_grow : (takeNoise n j d s).grow = s.grow := rfl
@[simp] theorem takeNoise_gValid : (takeNoise n j d s).gValid = s.gValid := rfl
@[simp] theorem takeNoise_word : (takeNoise n j d s).word = s.word := rfl
@[simp] theorem takeNoise_cw : (takeNoise n j d s).cw = s.cw := rfl
@[simp] theorem takeNoise_decWord : (takeNoise n j d s).decWord = s.decWord := rfl
@[simp] theorem takeNoise_trialErr : (takeNoise n j d s).trialErr = s.trialErr := rfl
@[simp] theorem takeNoise_rx : (takeNoise n j d s).rx = s.rx.set j (sampleWord (chan s.cfg (s.cw.getLsbD j) n (drawnNormal s d))) := rfl
@[simp] theorem takeNoise_rxValid : (takeNoise n j d s).rxValid = setBit s.rxValid j := rfl
@[simp] theorem takeNoise_sigma : (takeNoise n j d s).sigma = s.sigma := rfl
@[simp] theorem takeNoise_sigmaStart : (takeNoise n j d s).sigmaStart = s.sigmaStart := rfl
@[simp] theorem takeNoise_sigmaEnd : (takeNoise n j d s).sigmaEnd = s.sigmaEnd := rfl
@[simp] theorem takeNoise_sigmaStep : (takeNoise n j d s).sigmaStep = s.sigmaStep := rfl
@[simp] theorem takeNoise_trials : (takeNoise n j d s).trials = s.trials := rfl
@[simp] theorem takeNoise_errCount : (takeNoise n j d s).errCount = s.errCount := rfl
@[simp] theorem takeNoise_trialCount : (takeNoise n j d s).trialCount = s.trialCount := rfl
@[simp] theorem takeNoise_decCycles : (takeNoise n j d s).decCycles = s.decCycles := rfl
@[simp] theorem takeNoise_cwtIndex : (takeNoise n j d s).cwtIndex = s.cwtIndex := rfl
@[simp] theorem takeNoise_cwt : (takeNoise n j d s).cwt = s.cwt := rfl
@[simp] theorem takeNoise_resq : (takeNoise n j d s).resq = s.resq := rfl
@[simp] theorem takeNoise_phase : (takeNoise n j d s).phase = s.phase := rfl
@[simp] theorem takeNoise_pos : (takeNoise n j d s).pos = nextCoordinate s (j + 1) := rfl
@[simp] theorem takeNoise_level : (takeNoise n j d s).level = s.level := rfl
@[simp] theorem takeNoise_scan : (takeNoise n j d s).scan = s.scan := rfl
@[simp] theorem takeNoise_draw : (takeNoise n j d s).draw = .none := rfl
@[simp] theorem takeNoise_inputs : (takeNoise n j d s).inputs = s.inputs := rfl
@[simp] theorem takeNoise_responses : (takeNoise n j d s).responses = s.responses := rfl
@[simp] theorem takeNoise_freeCount : (takeNoise n j d s).freeCount = s.freeCount := rfl

end

section
variable (s : State)

@[simp] theorem judgeTrial_cfg : (judgeTrial s).cfg = s.cfg := rfl
@[simp] theorem judgeTrial_busy : (judgeTrial s).busy = s.busy := rfl
@[simp] theorem judgeTrial_done : (judgeTrial s).done = s.done := rfl
@[simp] theorem judgeTrial_tableValid : (judgeTrial s).tableValid = s.tableValid := rfl
@[simp] theorem judgeTrial_err : (judgeTrial s).err = s.err := rfl
@[simp] theorem judgeTrial_gRows : (judgeTrial s).gRows = s.gRows := rfl
@[simp] theorem judgeTrial_gCols : (judgeTrial s).gCols = s.gCols := rfl
@[simp] theorem judgeTrial_k : (judgeTrial s).k = s.k := rfl
@[simp] theorem judgeTrial_grow : (judgeTrial s).grow = s.grow := rfl
@[simp] theorem judgeTrial_gValid : (judgeTrial s).gValid = s.gValid := rfl
@[simp] theorem judgeTrial_word : (judgeTrial s).word = s.word := rfl
@[simp] theorem judgeTrial_cw : (judgeTrial s).cw = s.cw := rfl
@[simp] theorem judgeTrial_decWord : (judgeTrial s).decWord = BitVec.ofNat 32 (dec s) := rfl
@[simp] theorem judgeTrial_trialErr : (judgeTrial s).trialErr = decide (BitVec.ofNat 32 (dec s) ≠ s.word) := rfl
@[simp] theorem judgeTrial_rx : (judgeTrial s).rx = s.rx := rfl
@[simp] theorem judgeTrial_rxValid : (judgeTrial s).rxValid = s.rxValid := rfl
@[simp] theorem judgeTrial_sigma : (judgeTrial s).sigma = s.sigma := rfl
@[simp] theorem judgeTrial_sigmaStart : (judgeTrial s).sigmaStart = s.sigmaStart := rfl
@[simp] theorem judgeTrial_sigmaEnd : (judgeTrial s).sigmaEnd = s.sigmaEnd := rfl
@[simp] theorem judgeTrial_sigmaStep : (judgeTrial s).sigmaStep = s.sigmaStep := rfl
@[simp] theorem judgeTrial_trials : (judgeTrial s).trials = s.trials := rfl
@[simp] theorem judgeTrial_errCount : (judgeTrial s).errCount = s.errCount := rfl
@[simp] theorem judgeTrial_trialCount : (judgeTrial s).trialCount = s.trialCount := rfl
@[simp] theorem judgeTrial_decCycles : (judgeTrial s).decCycles = Config.freeCycles s.freeCount := rfl
@[simp] theorem judgeTrial_cwtIndex : (judgeTrial s).cwtIndex = s.cwtIndex := rfl
@[simp] theorem judgeTrial_cwt : (judgeTrial s).cwt = s.cwt := rfl
@[simp] theorem judgeTrial_resq : (judgeTrial s).resq = s.resq := rfl
@[simp] theorem judgeTrial_phase : (judgeTrial s).phase = s.phase := rfl
@[simp] theorem judgeTrial_pos : (judgeTrial s).pos = s.pos := rfl
@[simp] theorem judgeTrial_level : (judgeTrial s).level = s.level := rfl
@[simp] theorem judgeTrial_scan : (judgeTrial s).scan = scanAll s := rfl
@[simp] theorem judgeTrial_draw : (judgeTrial s).draw = s.draw := rfl
@[simp] theorem judgeTrial_inputs : (judgeTrial s).inputs = s.inputs := rfl
@[simp] theorem judgeTrial_responses : (judgeTrial s).responses = s.responses := rfl
@[simp] theorem judgeTrial_freeCount : (judgeTrial s).freeCount = s.freeCount + 1 := rfl

end

section
variable (s : State) (v : Nat)

@[simp] theorem beginLevel_cfg : (beginLevel v s).cfg = s.cfg := rfl
@[simp] theorem beginLevel_busy : (beginLevel v s).busy = s.busy := rfl
@[simp] theorem beginLevel_done : (beginLevel v s).done = s.done := rfl
@[simp] theorem beginLevel_tableValid : (beginLevel v s).tableValid = s.tableValid := rfl
@[simp] theorem beginLevel_err : (beginLevel v s).err = s.err := rfl
@[simp] theorem beginLevel_gRows : (beginLevel v s).gRows = s.gRows := rfl
@[simp] theorem beginLevel_gCols : (beginLevel v s).gCols = s.gCols := rfl
@[simp] theorem beginLevel_k : (beginLevel v s).k = s.k := rfl
@[simp] theorem beginLevel_grow : (beginLevel v s).grow = s.grow := rfl
@[simp] theorem beginLevel_gValid : (beginLevel v s).gValid = s.gValid := rfl
@[simp] theorem beginLevel_word : (beginLevel v s).word = s.word := rfl
@[simp] theorem beginLevel_cw : (beginLevel v s).cw = s.cw := rfl
@[simp] theorem beginLevel_decWord : (beginLevel v s).decWord = s.decWord := rfl
@[simp] theorem beginLevel_trialErr : (beginLevel v s).trialErr = s.trialErr := rfl
@[simp] theorem beginLevel_rx : (beginLevel v s).rx = s.rx := rfl
@[simp] theorem beginLevel_rxValid : (beginLevel v s).rxValid = s.rxValid := rfl
@[simp] theorem beginLevel_sigma : (beginLevel v s).sigma = BitVec.ofNat 32 v := rfl
@[simp] theorem beginLevel_sigmaStart : (beginLevel v s).sigmaStart = s.sigmaStart := rfl
@[simp] theorem beginLevel_sigmaEnd : (beginLevel v s).sigmaEnd = s.sigmaEnd := rfl
@[simp] theorem beginLevel_sigmaStep : (beginLevel v s).sigmaStep = s.sigmaStep := rfl
@[simp] theorem beginLevel_trials : (beginLevel v s).trials = s.trials := rfl
@[simp] theorem beginLevel_errCount : (beginLevel v s).errCount = 0 := rfl
@[simp] theorem beginLevel_trialCount : (beginLevel v s).trialCount = 0 := rfl
@[simp] theorem beginLevel_decCycles : (beginLevel v s).decCycles = 0 := rfl
@[simp] theorem beginLevel_cwtIndex : (beginLevel v s).cwtIndex = s.cwtIndex := rfl
@[simp] theorem beginLevel_cwt : (beginLevel v s).cwt = s.cwt := rfl
@[simp] theorem beginLevel_resq : (beginLevel v s).resq = s.resq := rfl
@[simp] theorem beginLevel_phase : (beginLevel v s).phase = s.phase := rfl
@[simp] theorem beginLevel_pos : (beginLevel v s).pos = .drawWord := rfl
@[simp] theorem beginLevel_level : (beginLevel v s).level = v := rfl
@[simp] theorem beginLevel_scan : (beginLevel v s).scan = s.scan := rfl
@[simp] theorem beginLevel_draw : (beginLevel v s).draw = s.draw := rfl
@[simp] theorem beginLevel_inputs : (beginLevel v s).inputs = s.inputs := rfl
@[simp] theorem beginLevel_responses : (beginLevel v s).responses = s.responses := rfl
@[simp] theorem beginLevel_freeCount : (beginLevel v s).freeCount = s.freeCount := rfl

end

section
variable (s : State)

@[simp] theorem tallyTrial_cfg : (tallyTrial s).cfg = s.cfg := rfl
@[simp] theorem tallyTrial_busy : (tallyTrial s).busy = s.busy := rfl
@[simp] theorem tallyTrial_done : (tallyTrial s).done = s.done := rfl
@[simp] theorem tallyTrial_tableValid : (tallyTrial s).tableValid = s.tableValid := rfl
@[simp] theorem tallyTrial_err : (tallyTrial s).err = s.err := rfl
@[simp] theorem tallyTrial_gRows : (tallyTrial s).gRows = s.gRows := rfl
@[simp] theorem tallyTrial_gCols : (tallyTrial s).gCols = s.gCols := rfl
@[simp] theorem tallyTrial_k : (tallyTrial s).k = s.k := rfl
@[simp] theorem tallyTrial_grow : (tallyTrial s).grow = s.grow := rfl
@[simp] theorem tallyTrial_gValid : (tallyTrial s).gValid = s.gValid := rfl
@[simp] theorem tallyTrial_word : (tallyTrial s).word = s.word := rfl
@[simp] theorem tallyTrial_cw : (tallyTrial s).cw = s.cw := rfl
@[simp] theorem tallyTrial_decWord : (tallyTrial s).decWord = s.decWord := rfl
@[simp] theorem tallyTrial_trialErr : (tallyTrial s).trialErr = s.trialErr := rfl
@[simp] theorem tallyTrial_rx : (tallyTrial s).rx = s.rx := rfl
@[simp] theorem tallyTrial_rxValid : (tallyTrial s).rxValid = s.rxValid := rfl
@[simp] theorem tallyTrial_sigma : (tallyTrial s).sigma = s.sigma := rfl
@[simp] theorem tallyTrial_sigmaStart : (tallyTrial s).sigmaStart = s.sigmaStart := rfl
@[simp] theorem tallyTrial_sigmaEnd : (tallyTrial s).sigmaEnd = s.sigmaEnd := rfl
@[simp] theorem tallyTrial_sigmaStep : (tallyTrial s).sigmaStep = s.sigmaStep := rfl
@[simp] theorem tallyTrial_trials : (tallyTrial s).trials = s.trials := rfl
@[simp] theorem tallyTrial_errCount : (tallyTrial s).errCount = if s.trialErr then s.errCount + 1 else s.errCount := rfl
@[simp] theorem tallyTrial_trialCount : (tallyTrial s).trialCount = s.trialCount + 1 := rfl
@[simp] theorem tallyTrial_decCycles : (tallyTrial s).decCycles = s.decCycles := rfl
@[simp] theorem tallyTrial_cwtIndex : (tallyTrial s).cwtIndex = s.cwtIndex := rfl
@[simp] theorem tallyTrial_cwt : (tallyTrial s).cwt = s.cwt := rfl
@[simp] theorem tallyTrial_resq : (tallyTrial s).resq = s.resq := rfl
@[simp] theorem tallyTrial_phase : (tallyTrial s).phase = s.phase := rfl
@[simp] theorem tallyTrial_pos : (tallyTrial s).pos = if s.trialCount.toNat + 1 < s.trials.toNat then .drawWord else .push := rfl
@[simp] theorem tallyTrial_level : (tallyTrial s).level = s.level := rfl
@[simp] theorem tallyTrial_scan : (tallyTrial s).scan = s.scan := rfl
@[simp] theorem tallyTrial_draw : (tallyTrial s).draw = s.draw := rfl
@[simp] theorem tallyTrial_inputs : (tallyTrial s).inputs = s.inputs := rfl
@[simp] theorem tallyTrial_responses : (tallyTrial s).responses = s.responses := rfl
@[simp] theorem tallyTrial_freeCount : (tallyTrial s).freeCount = s.freeCount := rfl

end

section
variable (s : State) (r : Response)

@[simp] theorem respond_cfg : (respond r s).cfg = s.cfg := rfl
@[simp] theorem respond_busy : (respond r s).busy = s.busy := rfl
@[simp] theorem respond_done : (respond r s).done = s.done := rfl
@[simp] theorem respond_tableValid : (respond r s).tableValid = s.tableValid := rfl
@[simp] theorem respond_err : (respond r s).err = s.err := rfl
@[simp] theorem respond_gRows : (respond r s).gRows = s.gRows := rfl
@[simp] theorem respond_gCols : (respond r s).gCols = s.gCols := rfl
@[simp] theorem respond_k : (respond r s).k = s.k := rfl
@[simp] theorem respond_grow : (respond r s).grow = s.grow := rfl
@[simp] theorem respond_gValid : (respond r s).gValid = s.gValid := rfl
@[simp] theorem respond_word : (respond r s).word = s.word := rfl
@[simp] theorem respond_cw : (respond r s).cw = s.cw := rfl
@[simp] theorem respond_decWord : (respond r s).decWord = s.decWord := rfl
@[simp] theorem respond_trialErr : (respond r s).trialErr = s.trialErr := rfl
@[simp] theorem respond_rx : (respond r s).rx = s.rx := rfl
@[simp] theorem respond_rxValid : (respond r s).rxValid = s.rxValid := rfl
@[simp] theorem respond_sigma : (respond r s).sigma = s.sigma := rfl
@[simp] theorem respond_sigmaStart : (respond r s).sigmaStart = s.sigmaStart := rfl
@[simp] theorem respond_sigmaEnd : (respond r s).sigmaEnd = s.sigmaEnd := rfl
@[simp] theorem respond_sigmaStep : (respond r s).sigmaStep = s.sigmaStep := rfl
@[simp] theorem respond_trials : (respond r s).trials = s.trials := rfl
@[simp] theorem respond_errCount : (respond r s).errCount = s.errCount := rfl
@[simp] theorem respond_trialCount : (respond r s).trialCount = s.trialCount := rfl
@[simp] theorem respond_decCycles : (respond r s).decCycles = s.decCycles := rfl
@[simp] theorem respond_cwtIndex : (respond r s).cwtIndex = s.cwtIndex := rfl
@[simp] theorem respond_cwt : (respond r s).cwt = s.cwt := rfl
@[simp] theorem respond_resq : (respond r s).resq = s.resq := rfl
@[simp] theorem respond_phase : (respond r s).phase = s.phase := rfl
@[simp] theorem respond_pos : (respond r s).pos = s.pos := rfl
@[simp] theorem respond_level : (respond r s).level = s.level := rfl
@[simp] theorem respond_scan : (respond r s).scan = s.scan := rfl
@[simp] theorem respond_draw : (respond r s).draw = s.draw := rfl
@[simp] theorem respond_inputs : (respond r s).inputs = s.inputs := rfl
@[simp] theorem respond_responses : (respond r s).responses = s.responses ++ [r] := rfl
@[simp] theorem respond_freeCount : (respond r s).freeCount = s.freeCount := rfl

end

end Sys2Proof.Machine
end

