-- ==== Sys2Proof/Laws/Bus.lean ====
section
/-! SUPPORT. Laws/Bus.lean: all a host transaction can do. -/

namespace Sys2Proof.Machine
open Sys2Proof

theorem lookup_mem {α : Type} {l : List (Nat × α)} {a : Nat} {r : α} (h : l.lookup a = some r) : (a, r) ∈ l := by
  induction l with
  | nil => cases h
  | cons e l ih =>
    obtain ⟨b, x⟩ := e
    rw [List.lookup] at h
    split at h
    · rename_i hab
      cases h
      have : a = b := by simpa using hab
      simp [this]
    · exact List.mem_cons_of_mem _ (ih h)

/-- The file registers are reached through their own ranges, and only up to N_MAX - 1 (20_memory.md R82). -/
theorem regAt_cases {p : Params} {a : Nat} {r : Reg} (h : regAt p a = some r) :
    (∃ i, i < p.nMax ∧ r = .grow i ∧ 0x080 + 4 * i ≤ a ∧ a < 0x080 + 4 * i + 4) ∨
    (∃ j, j < p.nMax ∧ r = .rx j ∧ 0x100 + 4 * j ≤ a ∧ a < 0x100 + 4 * j + 4) ∨
    (a, r) ∈ windowTable := by
  unfold regAt at h
  split at h
  · cases h
    exact .inl ⟨_, by omega, rfl, by omega, by omega⟩
  · split at h
    · cases h
      exact .inr (.inl ⟨_, by omega, rfl, by omega, by omega⟩)
    · exact .inr (.inr (lookup_mem h))

theorem windowTable_no_file : ∀ e ∈ windowTable, (∀ i, e.2 ≠ .grow i) ∧ ∀ j, e.2 ≠ .rx j := by
  intro e he
  simp only [windowTable, List.cons_append, List.nil_append, List.mem_cons, List.not_mem_nil, or_false] at he
  rcases he with he | he | he | he | he | he | he | he | he | he | he | he | he | he | he | he | he | he | he | he | he | he |
    he | he | he | he | he | he <;> subst he <;> simp

/-- A row's offset exists only for a row of the storage. -/
theorem regAt_grow {p : Params} {a i : Nat} (h : regAt p a = some (.grow i)) : i < p.nMax := by
  rcases regAt_cases h with ⟨i', hi, he, -⟩ | ⟨j, hj, he, -⟩ | hm
  · cases he; exact hi
  · cases he
  · exact absurd rfl ((windowTable_no_file _ hm).1 i)

/-- A sample's offset exists only for a sample of the storage. -/
theorem regAt_rx {p : Params} {a j : Nat} (h : regAt p a = some (.rx j)) : j < p.nMax := by
  rcases regAt_cases h with ⟨i', hi, he, -⟩ | ⟨j', hj, he, -⟩ | hm
  · cases he
  · cases he; exact hj
  · exact absurd rfl ((windowTable_no_file _ hm).2 j)

/-- Below the register files the window is its table (20_memory.md R82). -/
theorem regAt_low {p : Params} {a : Nat} (h : a < 0x080) : regAt p a = windowTable.lookup a := by
  unfold regAt
  rw [if_neg (by omega), if_neg (by omega)]

/-- Row i's offset (20_memory.md R82). -/
theorem regAt_rowOffset {p : Params} {i : Nat} (h : i < p.nMax) : regAt p (0x080 + 4 * i) = some (.grow i) := by
  unfold regAt
  rw [if_pos (by omega)]
  congr 2
  omega

/-- Sample j's offset, which lies past the rows in every instance (20_memory.md R82; 00_scope.md R6: N_MAX ≤ 32). -/
theorem regAt_sampleOffset {p : Params} (hp : p.nMax ≤ 32) {j : Nat} (h : j < p.nMax) :
    regAt p (0x100 + 4 * j) = some (.rx j) := by
  unfold regAt
  rw [if_neg (by omega), if_pos (by omega)]
  congr 2
  omega

/-- An offset outside the table and the files is unmapped (20_memory.md R83). -/
theorem regAt_none {p : Params} {a : Nat} (h1 : ¬ (0x080 ≤ a ∧ a < 0x080 + 4 * p.nMax))
    (h2 : ¬ (0x100 ≤ a ∧ a < 0x100 + 4 * p.nMax)) (h3 : 0x06C < a) : regAt p a = none := by
  unfold regAt
  rw [if_neg h1, if_neg h2]
  cases hl : windowTable.lookup a with
  | none => rfl
  | some r =>
    have hm := lookup_mem hl
    simp only [windowTable, List.cons_append, List.nil_append, List.mem_cons, Prod.mk.injEq, List.not_mem_nil, or_false] at hm
    omega

/-- A misaligned or narrow transaction, or one to an unmapped offset, is refused (20_memory.md R83, R84). -/
theorem hostAccess_refused {s : State} {a n : Nat} (h : a % 4 ≠ 0 ∨ n ≠ 4 ∨ regAt s.cfg a = none) (v : Word) :
    hostAccess (.read a n) s = respond errorResponse s ∧ hostAccess (.write a n v) s = respond errorResponse s := by
  by_cases h0 : a % 4 ≠ 0 ∨ n ≠ 4
  · simp [hostAccess, busRead, busWrite, h0]
  · have hr : regAt s.cfg a = none := by tauto
    simp [hostAccess, busRead, busWrite, h0, hr]

/-- The outcome of an aligned read of a mapped register. -/
theorem hostAccess_read {s : State} {a : Nat} {r : Reg} (ha : a % 4 = 0) (hr : regAt s.cfg a = some r) :
    hostAccess (.read a 4) s =
      if s.busy = true ∧ readWhileBusy r = false then respond errorResponse s
      else
        match readReg s r with
        | .ok v => respond (okayResponse v) s
        | .error _ => respond errorResponse s := by
  simp only [hostAccess, busRead, ha, hr, ne_eq, not_true_eq_false, or_self, if_false]
  split_ifs <;> rfl

/-- The outcome of an aligned write of a mapped register. -/
theorem hostAccess_write {s : State} {a : Nat} {v : Word} {r : Reg} (ha : a % 4 = 0) (hr : regAt s.cfg a = some r) :
    hostAccess (.write a 4 v) s =
      if (s.busy = true ∧ writeWhileBusy r = false) ∨ accessOf r = .readOnly ∨ fits s.cfg r v = false then
        respond errorResponse s
      else
        match writeReg s v r with
        | .ok s' => respond (okayResponse 0) s'
        | .error _ => respond errorResponse s := by
  simp only [hostAccess, busWrite, ha, hr, ne_eq, not_true_eq_false, or_self, if_false]
  by_cases h1 : s.busy = true ∧ writeWhileBusy r = false
  · simp [h1]
  · by_cases h2 : accessOf r = .readOnly
    · simp [h1, h2]
    · by_cases h3 : fits s.cfg r v = false
      · simp [h1, h2, h3]
      · cases writeReg s v r <;> simp [h1, h2, h3]

/-- RES_POP stands at 0x06C alone (20_memory.md R82). -/
theorem regAt_resPop {p : Params} {a : Nat} (h : regAt p a = some .resPop) : a = 0x06C := by
  rcases regAt_cases h with ⟨i, -, he, -⟩ | ⟨j, -, he, -⟩ | hm
  · cases he
  · cases he
  · simpa [windowTable] using hm

/-- What an accepted write has passed (60_exceptions.md R248), and what it then does. -/
theorem busWrite_ok {s s' : State} {a n : Nat} {v : Word} (h : busWrite s a n v = .ok s') :
    a % 4 = 0 ∧ n = 4 ∧ ∃ r, regAt s.cfg a = some r ∧ (s.busy = true → r = .resPop) ∧ fits s.cfg r v = true ∧
      writeReg s v r = .ok s' := by
  unfold busWrite at h
  split at h
  · cases h
  rename_i h0
  split at h
  · cases h
  rename_i r hr
  split at h
  · cases h
  rename_i hb
  split at h
  · cases h
  split at h
  · cases h
  rename_i hf
  refine ⟨by omega, by omega, r, hr, ?_, by simpa using hf, h⟩
  intro hbusy
  cases r <;> simp [hbusy, writeWhileBusy] at hb ⊢

/-- All a write that is not refused can do, register by register (20_memory.md R89): `WriteEffect s v r s'` says that
writing v to register r may take s to s'. -/
inductive WriteEffect (s : State) (v : Word) : Reg → State → Prop where
  | cmd : WriteEffect s v .cmd (startCommand v s)
  | pop : v.getLsbD 0 = true → WriteEffect s v .resPop (popRow s)
  | noPop : v.getLsbD 0 = false → WriteEffect s v .resPop s
  | gRows : WriteEffect s v .gRows (emptyStores { s with gRows := v.setWidth 6 })
  | gCols : WriteEffect s v .gCols (emptyStores { s with gCols := v.setWidth 5 })
  | k : WriteEffect s v .k { s with k := v.setWidth 5, tableValid := false }
  | word : WriteEffect s v .word { s with word := v }
  | sigma : WriteEffect s v .sigma { s with sigma := v }
  | sigmaStart : WriteEffect s v .sigmaStart { s with sigmaStart := v }
  | sigmaEnd : WriteEffect s v .sigmaEnd { s with sigmaEnd := v }
  | sigmaStep : WriteEffect s v .sigmaStep { s with sigmaStep := v }
  | trials : WriteEffect s v .trials { s with trials := v }
  | cwtIndex : WriteEffect s v .cwtIndex { s with cwtIndex := v }
  | grow (i : Nat) : i < s.gRows.toNat → v.toNat >>> s.gCols.toNat = 0 →
      WriteEffect s v (.grow i) { s with grow := s.grow.set i v, gValid := setBit s.gValid i, tableValid := false }
  | rx (j : Nat) : j < s.gRows.toNat →
      WriteEffect s v (.rx j) { s with rx := s.rx.set j v, rxValid := setBit s.rxValid j }

theorem writeReg_effect {s s' : State} {v : Word} {r : Reg} (h : writeReg s v r = .ok s') : WriteEffect s v r s' := by
  cases r with
  | cmd => cases h; exact .cmd
  | resPop =>
    cases hv : v.getLsbD 0
    · rw [writeReg, hv] at h; cases h; exact .noPop hv
    · rw [writeReg, hv] at h; cases h; exact .pop hv
  | gRows => cases h; exact .gRows
  | gCols => cases h; exact .gCols
  | k => cases h; exact .k
  | word => cases h; exact .word
  | sigma => cases h; exact .sigma
  | sigmaStart => cases h; exact .sigmaStart
  | sigmaEnd => cases h; exact .sigmaEnd
  | sigmaStep => cases h; exact .sigmaStep
  | trials => cases h; exact .trials
  | cwtIndex => cases h; exact .cwtIndex
  | grow i =>
    simp only [writeReg] at h
    split at h
    · cases h
    split at h
    · cases h
    cases h
    exact .grow i (by omega) (by simpa using ‹¬ _ ≠ 0›)
  | rx j =>
    simp only [writeReg] at h
    split at h
    · cases h
    cases h
    exact .rx j (by omega)
  | status | param | gValid | rxValid | cw | decWord | trialErr | errCount | trialCount | decCycles | cwtData | resLevel
  | resSigma | resErrors | resTrials | resCycles => cases h

/-- A transaction is either refused, and then only the response is recorded, or it is a read, and then likewise, or it is
an accepted write. -/
theorem hostAccess_cases (t : Txn) (s : State) :
    (hostAccess t s = respond errorResponse s) ∨
    (∃ a n v, t = .read a n ∧ busRead s a n = .ok v ∧ hostAccess t s = respond (okayResponse v) s) ∨
    (∃ a n v s', t = .write a n v ∧ busWrite s a n v = .ok s' ∧ hostAccess t s = respond (okayResponse 0) s') := by
  cases t with
  | read a n =>
    cases h : busRead s a n with
    | error e => simp [hostAccess, h]
    | ok v => simp [hostAccess, h]
  | write a n v =>
    cases h : busWrite s a n v with
    | error e => simp [hostAccess, h]
    | ok s' => simp [hostAccess, h]

end Sys2Proof.Machine
end

