-- ==== Sys2Proof/Laws/Checks.lean ====
section
/-! SUPPORT. Laws/Checks.lean: when each command's start check answers what. -/

namespace Sys2Proof.Machine
open Sys2Proof

theorem rowsFilled_eq_true {s : State} :
    rowsFilled s = true ↔ ∀ i, i < s.gRows.toNat → s.gValid.getLsbD i = true := allUpTo_eq_true

theorem rowsFilled_eq_false {s : State} :
    rowsFilled s = false ↔ ∃ i, i < s.gRows.toNat ∧ s.gValid.getLsbD i = false := allUpTo_eq_false

theorem samplesFilled_eq_true {s : State} :
    samplesFilled s = true ↔ ∀ j, j < s.gRows.toNat → s.rxValid.getLsbD j = true := allUpTo_eq_true

theorem samplesFilled_eq_false {s : State} :
    samplesFilled s = false ↔ ∃ j, j < s.gRows.toNat ∧ s.rxValid.getLsbD j = false := allUpTo_eq_false

/-- The shape and the information-bit count that BUILD accepts (41_engine_build_encode.md R165). -/
theorem buildCheck_config {s : State} :
    buildCheck s = some .config ↔
      ¬ (1 ≤ s.gRows.toNat ∧ s.gRows.toNat ≤ s.cfg.nMax ∧ s.gCols.toNat ≤ s.cfg.kMax ∧ 1 ≤ s.k.toNat ∧
        s.k.toNat ≤ s.gCols.toNat) := by
  unfold buildCheck
  split_ifs <;> simp <;> omega

theorem buildCheck_uninit {s : State} :
    buildCheck s = some .uninit ↔
      (1 ≤ s.gRows.toNat ∧ s.gRows.toNat ≤ s.cfg.nMax ∧ s.gCols.toNat ≤ s.cfg.kMax ∧ 1 ≤ s.k.toNat ∧
        s.k.toNat ≤ s.gCols.toNat) ∧ rowsFilled s = false := by
  unfold buildCheck
  split_ifs with h1 h2 h3 h4
  · simp; omega
  · simp; omega
  · simp; omega
  · simp [h4]; omega
  · simp [h4]

theorem buildCheck_none {s : State} :
    buildCheck s = none ↔
      (1 ≤ s.gRows.toNat ∧ s.gRows.toNat ≤ s.cfg.nMax ∧ s.gCols.toNat ≤ s.cfg.kMax ∧ 1 ≤ s.k.toNat ∧
        s.k.toNat ≤ s.gCols.toNat) ∧ rowsFilled s = true := by
  unfold buildCheck
  split_ifs with h1 h2 h3 h4
  · simp; omega
  · simp; omega
  · simp; omega
  · simp [h4]
  · simp [h4]; omega

theorem encodeCheck_noEngine {s : State} (h : s.tableValid = false) : encodeCheck s = some .noEngine := by
  simp [encodeCheck, h]

theorem encodeCheck_range {s : State} (h : s.tableValid = true) (hw : 2 ^ s.k.toNat ≤ s.word.toNat) :
    encodeCheck s = some .range := by
  simp [encodeCheck, h, hw]

theorem encodeCheck_none {s : State} :
    encodeCheck s = none ↔ s.tableValid = true ∧ s.word.toNat < 2 ^ s.k.toNat := by
  unfold encodeCheck
  split_ifs with h1 h2 <;> simp_all

theorem decodeCheck_noEngine {s : State} (h : s.tableValid = false) : decodeCheck s = some .noEngine := by
  simp [decodeCheck, h]

theorem decodeCheck_uninit {s : State} (h : s.tableValid = true) (hf : samplesFilled s = false) :
    decodeCheck s = some .uninit := by
  simp [decodeCheck, h, hf]

theorem decodeCheck_none {s : State} :
    decodeCheck s = none ↔ s.tableValid = true ∧ samplesFilled s = true := by
  unfold decodeCheck
  split_ifs with h1 h2 <;> simp_all

theorem sweepCheck_noEngine {s : State} (h : s.tableValid = false) : sweepCheck s = some .noEngine := by
  simp [sweepCheck, h]

theorem sweepCheck_config {s : State} (h : s.tableValid = true)
    (hb : s.sigmaStart.toNat = 0 ∨ s.sigmaEnd.toNat ≤ s.sigmaStart.toNat ∨ s.sigmaStep.toNat = 0 ∨ s.trials.toNat = 0) :
    sweepCheck s = some .config := by
  unfold sweepCheck
  rw [if_neg (by simp [h])]
  split_ifs <;> first | rfl | omega

theorem sweepCheck_none {s : State} :
    sweepCheck s = none ↔ s.tableValid = true ∧ 0 < s.sigmaStart.toNat ∧ s.sigmaStart.toNat < s.sigmaEnd.toNat ∧
      0 < s.sigmaStep.toNat ∧ 0 < s.trials.toNat := by
  unfold sweepCheck
  split_ifs with h1 <;> simp [*]
  omega

end Sys2Proof.Machine
end

