-- ==== Sys2Proof/Laws/Decode.lean ====
section
/-! SUPPORT. Laws/Decode.lean: the value of a reserved row's word and why it lies in its row. -/

namespace Sys2Proof
open Sys2Proof

/-- A word with highest set bit p is 2^p plus its low bits. -/
theorem topWord_toNat (p : Nat) (low : BitVec p) (hp : p < 32) : (topWord p low).toNat = 2 ^ p + low.toNat := by
  have hlow : low.toNat < 2 ^ p := low.isLt
  have h32 : (2 : Nat) ^ p < 2 ^ 32 := Nat.pow_lt_pow_right (by omega) hp
  have hl : (low.setWidth 32).toNat = low.toNat := by
    rw [BitVec.toNat_setWidth, Nat.mod_eq_of_lt (by omega)]
  have h1 : (1#32 <<< p).toNat = 2 ^ p * 1 := by
    rw [BitVec.toNat_shiftLeft, Nat.shiftLeft_eq, Nat.mod_eq_of_lt] <;> norm_num
    exact lt_of_lt_of_eq h32 (by norm_num)
  rw [topWord, BitVec.toNat_or, h1, hl, ← Nat.two_pow_add_eq_or_of_lt hlow, Nat.mul_one]

/-- Cutting the word back to its p low bits gives them. -/
theorem topWord_setWidth (p : Nat) (low : BitVec p) (hp : p < 32) : (topWord p low).setWidth p = low := by
  apply BitVec.eq_of_toNat_eq
  rw [BitVec.toNat_setWidth, topWord_toNat p low hp, Nat.add_mod_left, Nat.mod_eq_of_lt low.isLt]

/-- A word with highest set bit p belongs to every row whose mask clears exactly the bits below p. -/
theorem topWord_holds (p : Nat) (low : BitVec p) {r : OpcodeRow} (hp : p < 32) (hpat : r.pattern = 1#32 <<< p)
    (hmask : r.mask = BitVec.allOnes 32 <<< p) : r.holds (topWord p low) = true := by
  rw [OpcodeRow.holds, decide_eq_true_eq, hpat, hmask]
  apply BitVec.eq_of_getLsbD_eq
  intro i hi
  rw [BitVec.getLsbD_and, topWord, BitVec.getLsbD_or, BitVec.getLsbD_shiftLeft, BitVec.getLsbD_shiftLeft,
    BitVec.getLsbD_setWidth, BitVec.getLsbD_allOnes]
  by_cases h : i < p
  · simp [h]
  · have hl : low.getLsbD i = false := BitVec.getLsbD_of_ge low i (by omega)
    have : i - p < 32 := by omega
    simp [h, hi, hl, this]

end Sys2Proof
end

