-- ==== Sys2Proof/Laws/Exec.lean ====
section
/-! SUPPORT. Laws/Exec.lean: all the sequencer's step can do, and all a step of the machine can do. Invariants are proved
by cases on these two lists; the step function is not unfolded again. -/

namespace Sys2Proof.Machine
open Sys2Proof

/-- The six commands; every other instruction is a reserved word. -/
def isCommand : Instr → Bool
  | .nop | .build | .encode | .decode | .trial | .sweep => true
  | _ => false

/-- TRIAL and SWEEP, which run a trial. -/
def runsTrials (i : Instr) : Prop := i = .trial ∨ i = .sweep

/-- The noise level of the trial that the command runs: SIGMA for TRIAL, the level s for SWEEP. -/
def trialSigma (i : Instr) (s : State) : Nat := if i = .trial then s.sigma.toNat else s.level

/-- All that one sequencer step of instruction i can do to s. -/
inductive ExecEffect (s : State) : Instr → State → Prop where
  | nop : ExecEffect s .nop (complete 0 s)
  | illegal {i : Instr} : isCommand i = false → ExecEffect s i (raiseCmdError .illCmd s)
  | buildError (e : CmdError) : buildCheck s = some e → ExecEffect s .build (raiseCmdError e s)
  | build : buildCheck s = none →
      ExecEffect s .build (complete 0 { s with cwt := builtTable s, tableValid := true })
  | encodeError (e : CmdError) : encodeCheck s = some e → ExecEffect s .encode (raiseCmdError e s)
  | encode : encodeCheck s = none → ExecEffect s .encode (complete 0 { s with cw := enc s s.word.toNat })
  | decodeError (e : CmdError) : decodeCheck s = some e → ExecEffect s .decode (raiseCmdError e s)
  | decode : decodeCheck s = none → ExecEffect s .decode (complete 0 (decodeStep s))
  | trialError : s.pos = .start → s.tableValid = false → ExecEffect s .trial (raiseCmdError .noEngine s)
  | trialStart : s.pos = .start → s.tableValid = true → ExecEffect s .trial { s with pos := .drawWord }
  | trialEnd : s.pos = .judge → ExecEffect s .trial (complete 0 (judgeTrial s))
  | sweepError (e : CmdError) : s.pos = .start → sweepCheck s = some e → ExecEffect s .sweep (raiseCmdError e s)
  | sweepStart : s.pos = .start → sweepCheck s = none → ExecEffect s .sweep (beginLevel s.sigmaStart.toNat s)
  | sweepTally : s.pos = .judge → ExecEffect s .sweep (tallyTrial (judgeTrial s))
  | sweepPush : s.pos = .push → s.resq.length < s.cfg.resqDepth →
      ExecEffect s .sweep { appendRow (levelRow s) s with pos := .nextLevel }
  | sweepNext : s.pos = .nextLevel → s.level + s.sigmaStep.toNat ≤ s.sigmaEnd.toNat →
      ExecEffect s .sweep (beginLevel (s.level + s.sigmaStep.toNat) s)
  | sweepEnd : s.pos = .nextLevel → s.sigmaEnd.toNat < s.level + s.sigmaStep.toNat →
      ExecEffect s .sweep (complete 0 { s with level := s.level + s.sigmaStep.toNat })
  | askWord {i : Instr} : runsTrials i → s.pos = .drawWord →
      ExecEffect s i (requestDraw (.uniform s.k.toNat) .takeWord s)
  | gotWord {i : Instr} (d : Word) : runsTrials i → s.pos = .takeWord → s.draw = .answered d →
      ExecEffect s i (takeWord d s)
  | askNoise {i : Instr} (j : Nat) : runsTrials i → s.pos = .drawNoise j →
      ExecEffect s i (requestDraw .normal (.takeNoise j) s)
  | gotNoise {i : Instr} (j : Nat) (d : Word) : runsTrials i → s.pos = .takeNoise j → s.draw = .answered d →
      ExecEffect s i (takeNoise (trialSigma i s) j d s)
  | hold {i : Instr} : runsTrials i → ExecEffect s i s

/-- The shared trial step, for either command. -/
theorem trialStep_effect {i : Instr} (hi : runsTrials i) (s : State) :
    ExecEffect s i (trialStep (trialSigma i s) s) := by
  unfold trialStep
  split
  · exact .askWord hi ‹_›
  · split
    · exact .gotWord _ hi ‹_› ‹_›
    · exact .hold hi
  · exact .askNoise _ hi ‹_›
  · split
    · exact .gotNoise _ _ hi ‹_› ‹_›
    · exact .hold hi
  · exact .hold hi

theorem execTrial_effect (s : State) : ∃ t, execTrial s = .next t ∧ ExecEffect s .trial t := by
  unfold execTrial
  split
  · split
    · exact ⟨_, rfl, .trialError ‹_› ‹_›⟩
    · rename_i hp ht
      exact ⟨_, rfl, .trialStart hp (by simpa using ht)⟩
  · exact ⟨_, rfl, .trialEnd ‹_›⟩
  · exact ⟨_, rfl, trialStep_effect (.inl rfl) s⟩

theorem execSweep_effect (s : State) : ∃ t, execSweep s = .next t ∧ ExecEffect s .sweep t := by
  unfold execSweep
  split
  · split
    · exact ⟨_, rfl, .sweepError _ ‹_› ‹_›⟩
    · exact ⟨_, rfl, .sweepStart ‹_› ‹_›⟩
  · exact ⟨_, rfl, .sweepTally ‹_›⟩
  · refine ⟨_, rfl, ?_⟩
    unfold pushLevelRow
    split
    · exact .sweepPush ‹_› ‹_›
    · exact .hold (.inr rfl)
  · refine ⟨_, rfl, ?_⟩
    unfold advanceLevel
    split
    · exact .sweepNext ‹_› ‹_›
    · exact .sweepEnd ‹_› (by omega)
  · exact ⟨_, rfl, trialStep_effect (.inr rfl) s⟩

/-- Every instruction answers a next state, and one of the list. -/
theorem exec_effect (i : Instr) (s : State) : ∃ t, exec i s = .next t ∧ ExecEffect s i t := by
  cases i with
  | nop => exact ⟨_, rfl, .nop⟩
  | build =>
    rw [exec, execBuild]
    split
    · exact ⟨_, rfl, .buildError _ ‹_›⟩
    · exact ⟨_, rfl, .build ‹_›⟩
  | encode =>
    rw [exec, execEncode]
    split
    · exact ⟨_, rfl, .encodeError _ ‹_›⟩
    · exact ⟨_, rfl, .encode ‹_›⟩
  | decode =>
    rw [exec, execDecode]
    split
    · exact ⟨_, rfl, .decodeError _ ‹_›⟩
    · exact ⟨_, rfl, .decode ‹_›⟩
  | trial => exact execTrial_effect s
  | sweep => exact execSweep_effect s
  | _ => exact ⟨_, rfl, .illegal rfl⟩

theorem exec_next {i : Instr} {s t : State} (h : exec i s = .next t) : ExecEffect s i t := by
  obtain ⟨t', h', he⟩ := exec_effect i s
  rw [h] at h'
  cases h'
  exact he

/-- All that move m can do to s, the moves still to come being set already. -/
inductive MoveEffect (s : State) : Move → State → Prop where
  | idle : s.phase = .idle → MoveEffect s .sequencer s
  | run {t : State} (i : Instr) : s.phase = .run i → ExecEffect s i t → MoveEffect s .sequencer t
  | refusedAccess (x : Txn) : MoveEffect s (.host x) (respond errorResponse s)
  | readAccess (a n : Nat) (v : Word) : MoveEffect s (.host (.read a n)) (respond (okayResponse v) s)
  | writeAccess {s' : State} (a : Nat) (v : Word) (r : Reg) : a % 4 = 0 → regAt s.cfg a = some r →
      (s.busy = true → r = .resPop) → fits s.cfg r v = true → WriteEffect s v r s' →
      MoveEffect s (.host (.write a 4 v)) (respond (okayResponse 0) s')
  | answered (q : DrawKind) (d : Word) : s.draw = .requested q → MoveEffect s (.answer d) { s with draw := .answered d }
  | answerIgnored (d : Word) : (∀ q, s.draw ≠ .requested q) → MoveEffect s (.answer d) s
  | reset : MoveEffect s .reset (resetCore s)

theorem sequencerTurn_effect (s : State) : ∃ t, sequencerTurn s = .next t ∧ MoveEffect s .sequencer t := by
  unfold sequencerTurn
  split
  · exact ⟨_, rfl, .idle ‹_›⟩
  · obtain ⟨t, h, he⟩ := exec_effect _ s
    exact ⟨t, h, .run _ ‹_› he⟩

theorem hostAccess_effect (x : Txn) (s : State) : MoveEffect s (.host x) (hostAccess x s) := by
  rcases hostAccess_cases x s with h | ⟨a, n, v, rfl, -, h⟩ | ⟨a, n, v, s', rfl, hw, h⟩ <;> rw [h]
  · exact .refusedAccess x
  · exact .readAccess a n v
  · obtain ⟨ha, rfl, r, hr, hb, hf, he⟩ := busWrite_ok hw
    exact .writeAccess a v r ha hr hb hf (writeReg_effect he)

theorem applyMove_effect (m : Move) (s : State) : ∃ t, applyMove m s = .next t ∧ MoveEffect s m t := by
  cases m with
  | host x => exact ⟨_, rfl, hostAccess_effect x s⟩
  | answer d =>
    refine ⟨_, rfl, ?_⟩
    unfold receiveAnswer
    split
    · exact .answered _ d ‹_›
    · rename_i h
      exact .answerIgnored d h
  | sequencer => exact sequencerTurn_effect s
  | reset => exact ⟨_, rfl, .reset⟩

/-- The move that the next step takes: the sequencer's where none is listed (log 8). -/
def nextMove (s : State) : Move := s.inputs.headD .sequencer

theorem nextMove_sequencer {s : State} (h : nextMove s = .sequencer) :
    s.inputs = [] ∨ ∃ rest, s.inputs = .sequencer :: rest := by
  unfold nextMove at h
  cases hi : s.inputs <;> simp_all

theorem nextMove_listed {s : State} {m : Move} (h : nextMove s = m) (hm : m ≠ .sequencer) :
    ∃ rest, s.inputs = m :: rest := by
  unfold nextMove at h
  cases hi : s.inputs <;> simp_all

/-- Every step answers a next state, and one of the list for the move it takes, from s less that move. -/
theorem step_effect (s : State) :
    ∃ t, step s = .next t ∧ MoveEffect { s with inputs := s.inputs.tail } (nextMove s) t := by
  unfold step nextMove
  cases h : s.inputs with
  | nil =>
    have hs : { s with inputs := ([] : List Move).tail } = s := by cases s; simp_all
    rw [hs]
    exact sequencerTurn_effect s
  | cons m rest => exact applyMove_effect m _

theorem step_next {s t : State} (h : step s = .next t) :
    MoveEffect { s with inputs := s.inputs.tail } (nextMove s) t := by
  obtain ⟨t', h', he⟩ := step_effect s
  rw [h] at h'
  cases h'
  exact he

end Sys2Proof.Machine
end

