-- ==== Sys2Proof/Laws/Memory.lean ====
section
/-! SUPPORT. Laws/Memory.lean: the codeword table's memory: read after write, read after fill, and the canonical form. -/

namespace Sys2Proof.Machine
open Sys2Proof

/-- Every row of a memory in canonical form lies above a bound that its rows lie above. -/
theorem Memory.readRow_below {m : Memory} {i : Nat} (h : ∀ c ∈ m, i < c.1) : m.readRow i = unlistedRow := by
  induction m with
  | nil => rfl
  | cons c m ih =>
    obtain ⟨b, x⟩ := c
    have hb : i < b := h (b, x) (by simp)
    rw [Memory.readRow, if_neg (by omega), ih (fun c hc => h c (by simp [hc]))]

theorem Memory.wf_cons {b : Nat} {x : Word} {m : Memory} :
    Memory.wf ((b, x) :: m) = true ↔ x ≠ unlistedRow ∧ (∀ c ∈ m, b < c.1) ∧ Memory.wf m = true := by
  simp only [Memory.wf, Bool.and_eq_true, decide_eq_true_eq, List.all_eq_true, and_assoc]

theorem Memory.mem_writeRow {m : Memory} {i : Nat} {v : Word} {c : Nat × Word} (h : c ∈ m.writeRow i v) :
    c ∈ m ∨ c = (i, v) := by
  induction m with
  | nil => simp only [Memory.writeRow] at h; split at h <;> simp_all
  | cons d m ih =>
    obtain ⟨b, x⟩ := d
    simp only [Memory.writeRow] at h
    split at h
    · split at h
      · exact .inl h
      · rcases List.mem_cons.mp h with h | h
        · exact .inr h
        · exact .inl h
    · split at h
      · split at h
        · exact .inl (List.mem_cons_of_mem _ h)
        · rcases List.mem_cons.mp h with h | h
          · exact .inr h
          · exact .inl (List.mem_cons_of_mem _ h)
      · rcases List.mem_cons.mp h with rfl | h
        · simp
        · rcases ih h with h | h
          · exact .inl (List.mem_cons_of_mem _ h)
          · exact .inr h

/-- A write keeps the canonical form. -/
theorem Memory.writeRow_wf {m : Memory} (hm : m.wf = true) (i : Nat) (v : Word) : (m.writeRow i v).wf = true := by
  induction m with
  | nil => simp only [Memory.writeRow]; split <;> simp_all [Memory.wf]
  | cons d m ih =>
    obtain ⟨b, x⟩ := d
    obtain ⟨hx, hb, hw⟩ := Memory.wf_cons.mp hm
    simp only [Memory.writeRow]
    split
    · split
      · exact hm
      · refine Memory.wf_cons.mpr ⟨‹_›, ?_, hm⟩
        intro c hc
        rcases List.mem_cons.mp hc with rfl | hc
        · assumption
        · have := hb c hc; omega
    · split
      · split
        · exact hw
        · subst i; exact Memory.wf_cons.mpr ⟨‹_›, hb, hw⟩
      · refine Memory.wf_cons.mpr ⟨hx, ?_, ih hw⟩
        intro c hc
        rcases Memory.mem_writeRow hc with hc | rfl
        · exact hb c hc
        · simp only; omega

/-- A write to row i makes row i read as the value and leaves every other row alone. -/
theorem Memory.readRow_writeRow {m : Memory} (hm : m.wf = true) (i : Nat) (v : Word) (j : Nat) :
    (m.writeRow i v).readRow j = if j = i then v else m.readRow j := by
  induction m with
  | nil =>
    simp only [Memory.writeRow]
    split <;> simp only [Memory.readRow]
    · split <;> simp_all
    · simp only [eq_comm]
  | cons d m ih =>
    obtain ⟨b, x⟩ := d
    obtain ⟨hx, hb, hw⟩ := Memory.wf_cons.mp hm
    simp only [Memory.writeRow]
    split
    · rename_i hib
      split
      · rename_i hv
        split
        · subst j
          rw [hv]
          exact Memory.readRow_below fun c hc => by
            rcases List.mem_cons.mp hc with rfl | hc
            · exact hib
            · have := hb c hc; omega
        · rfl
      · simp only [Memory.readRow]
        simp only [eq_comm (a := i)]
    · split
      · rename_i hib
        subst hib
        split
        · rename_i hv
          split
          · subst j
            rw [hv]
            exact Memory.readRow_below hb
          · simp only [Memory.readRow]
            rw [if_neg (by omega)]
        · simp only [Memory.readRow]
          by_cases hj : j = i
          · simp [hj]
          · simp [hj, Ne.symm hj]
      · simp only [Memory.readRow]
        by_cases hj : b = j
        · subst hj
          rw [if_pos rfl, if_neg (by omega), if_pos rfl]
        · simp only [hj, if_false]
          exact ih hw

/-- A fill keeps the canonical form. -/
theorem Memory.fillRows_wf {m : Memory} (hm : m.wf = true) (f : Nat → Word) (n : Nat) : (m.fillRows f n).wf = true := by
  induction n with
  | zero => exact hm
  | succ n ih => exact Memory.writeRow_wf ih n (f n)

/-- After a fill, rows below n read as f says and every other row as before. -/
theorem Memory.readRow_fillRows {m : Memory} (hm : m.wf = true) (f : Nat → Word) (n j : Nat) :
    (m.fillRows f n).readRow j = if j < n then f j else m.readRow j := by
  induction n with
  | zero => simp [Memory.fillRows]
  | succ n ih =>
    rw [Memory.fillRows, Memory.readRow_writeRow (Memory.fillRows_wf hm f n), ih]
    by_cases hj : j = n
    · subst hj; simp
    · by_cases hlt : j < n
      · simp [hj, hlt, Nat.lt_succ_of_lt hlt]
      · have : ¬ j < n + 1 := by omega
        simp [hj, hlt, this]

end Sys2Proof.Machine
end

