-- ==== Sys2Proof/Laws/Operands.lean ====
section
/-! SUPPORT. Laws/Operands.lean: what the encoder, the score, the scan and the channel arithmetic compute. -/

namespace Sys2Proof.Machine
open Sys2Proof

/-- Bit i of a codeword. -/
theorem encWith_getLsbD (grow : List Word) (n k w i : Nat) (hi : i < 32) :
    (encWith grow n k w).getLsbD i = (decide (i < n) && encBit grow k w i) :=
  wordOfBits_getLsbD n _ i hi

theorem enc_getLsbD (s : State) (w i : Nat) (hi : i < 32) :
    (enc s w).getLsbD i = (decide (i < s.gRows.toNat) && encBit s.grow s.k.toNat w i) :=
  encWith_getLsbD _ _ _ _ i hi

/-- A codeword of length n fits in m ≥ n bits. -/
theorem encWith_lt (grow : List Word) {n m : Nat} (hnm : n ≤ m) (k w : Nat) :
    (encWith grow n k w).toNat < 2 ^ m := by
  apply Nat.lt_pow_two_of_testBit
  intro i hi
  by_cases h32 : i < 32
  · have h := encWith_getLsbD grow n k w i h32
    rw [BitVec.getLsbD] at h
    rw [h]
    have : ¬ i < n := by omega
    simp [this]
  · exact BitVec.getLsbD_of_ge _ i (by omega)

theorem encBit_xor (grow : List Word) (k a b i : Nat) :
    encBit grow k (a ^^^ b) i = (encBit grow k a i ^^ encBit grow k b i) := by
  rw [encBit, encBit, encBit, ← xorUpTo_xor]
  apply xorUpTo_congr
  intro j _
  simp only [bitOfWord, Nat.testBit_xor]
  cases entryOf grow i j <;> simp

theorem score_eq_sum (s : State) (i : Nat) :
    score s i = ∑ j ∈ Finset.range s.gRows.toNat, if (s.cwt.readRow i).getLsbD j then sampleAt s j else 0 :=
  sumUpTo_eq_sum _ _

/-- All the scan can answer: the least index among the candidates of greatest score, with that score. -/
theorem scanTo_spec (f : Nat → Int) (m : Nat) :
    (scanTo f m).candidate = m ∧ (scanTo f m).bestScore = f (scanTo f m).best ∧ (scanTo f m).best ≤ m ∧
      (∀ i, i ≤ m → f i ≤ f (scanTo f m).best) ∧ ∀ i, i < (scanTo f m).best → f i < f (scanTo f m).best := by
  induction m with
  | zero => simp [scanTo]
  | succ m ih =>
    obtain ⟨-, hs, hb, hmax, hleast⟩ := ih
    by_cases h : f (m + 1) > (scanTo f m).bestScore
    · simp only [scanTo, if_pos h]
      rw [hs] at h
      refine ⟨trivial, trivial, le_rfl, ?_, ?_⟩
      · intro i hi
        rcases Nat.lt_succ_iff_lt_or_eq.mp (Nat.lt_succ_of_le hi) with h' | rfl
        · exact (lt_of_le_of_lt (hmax i (by omega)) h).le
        · exact le_rfl
      · intro i hi
        exact lt_of_le_of_lt (hmax i (by omega)) h
    · simp only [scanTo, if_neg h]
      rw [hs] at h
      refine ⟨trivial, hs, by omega, ?_, hleast⟩
      intro i hi
      rcases Nat.lt_succ_iff_lt_or_eq.mp (Nat.lt_succ_of_le hi) with h' | rfl
      · exact hmax i (by omega)
      · omega

/-- dec answers the least index among the greatest scores (42_engine_decode.md R181). -/
theorem dec_spec (s : State) :
    dec s < 2 ^ s.k.toNat ∧ (∀ i, i < 2 ^ s.k.toNat → score s i ≤ score s (dec s)) ∧
      ∀ i, i < dec s → score s i < score s (dec s) := by
  have hpos : 0 < 2 ^ s.k.toNat := by positivity
  obtain ⟨-, -, hb, hmax, hleast⟩ := scanTo_spec (score s) (2 ^ s.k.toNat - 1)
  have hb' : dec s ≤ 2 ^ s.k.toNat - 1 := hb
  exact ⟨by omega, fun i hi => hmax i (by omega), hleast⟩

/-- Only one index can be the least among the greatest scores. -/
theorem dec_unique (s : State) {b : Nat} (hb : b < 2 ^ s.k.toNat)
    (hmax : ∀ i, i < 2 ^ s.k.toNat → score s i ≤ score s b) (hleast : ∀ i, i < b → score s i < score s b) :
    dec s = b := by
  obtain ⟨hd, hdmax, hdleast⟩ := dec_spec s
  rcases Nat.lt_trichotomy (dec s) b with h | h | h
  · have := hleast _ h; have := hdmax b hb; omega
  · exact h
  · have := hdleast _ h; have := hmax _ hd; omega

theorem dec_lt_word (s : State) : dec s < 2 ^ 32 :=
  lt_trans (dec_spec s).1 (Nat.pow_lt_pow_right (by omega) s.k.isLt)

/-- Clamping lands in the sample range. -/
theorem sat_range (p : Params) (v : Int) :
    sampleMin p ≤ sat p v ∧ sat p v ≤ sampleMax p := by
  have h : (1 : Int) ≤ 2 ^ (p.sampleW - 1) := one_le_pow₀ (by norm_num)
  unfold sat sampleMin sampleMax
  split
  · constructor <;> omega
  · split <;> constructor <;> omega

/-- A value in the sample range stands in RX as itself. -/
theorem sampleWord_toInt {p : Params} (hw : p.sampleW ≤ 32) {v : Int}
    (hlo : sampleMin p ≤ v) (hhi : v ≤ sampleMax p) : (sampleWord v).toInt = v := by
  have h : (2 : Int) ^ (p.sampleW - 1) ≤ 2 ^ 31 := pow_le_pow_right₀ (by norm_num) (by omega)
  unfold sampleMin at hlo
  unfold sampleMax at hhi
  rw [sampleWord, BitVec.toInt_ofInt, Int.bmod_eq_of_le] <;> norm_num at * <;> omega

end Sys2Proof.Machine
end

