-- ==== Sys2Proof/Laws/PerInstr.lean ====
section
/-! SUPPORT. Laws/PerInstr.lean: the per-instruction family TableRow: an instruction's word lies in its own row of the
opcode table (30_encoding.md R110, R111). -/

namespace Sys2Proof.Laws.TableRow

/-- The word of i matches the row of spec/opcode_table.json that i stands for. -/
def Statement (i : Instr) : Prop := (opcodeRow i).holds (encode i) = true

theorem nop : Statement .nop := by unfold Statement; decide

theorem build : Statement .build := by unfold Statement; decide

theorem encode : Statement .encode := by unfold Statement; decide

theorem decode : Statement .decode := by unfold Statement; decide

theorem trial : Statement .trial := by unfold Statement; decide

theorem sweep : Statement .sweep := by unfold Statement; decide

theorem illOpc6_7 (low : BitVec 1) : Statement (.illOpc6_7 low) := by unfold Statement; revert low; decide

theorem illOpc8_15 (low : BitVec 3) : Statement (.illOpc8_15 low) := by unfold Statement; revert low; decide

theorem illTop4 (low : BitVec 4) : Statement (.illTop4 low) := topWord_holds 4 low (by decide) rfl rfl

theorem illTop5 (low : BitVec 5) : Statement (.illTop5 low) := topWord_holds 5 low (by decide) rfl rfl

theorem illTop6 (low : BitVec 6) : Statement (.illTop6 low) := topWord_holds 6 low (by decide) rfl rfl

theorem illTop7 (low : BitVec 7) : Statement (.illTop7 low) := topWord_holds 7 low (by decide) rfl rfl

theorem illTop8 (low : BitVec 8) : Statement (.illTop8 low) := topWord_holds 8 low (by decide) rfl rfl

theorem illTop9 (low : BitVec 9) : Statement (.illTop9 low) := topWord_holds 9 low (by decide) rfl rfl

theorem illTop10 (low : BitVec 10) : Statement (.illTop10 low) := topWord_holds 10 low (by decide) rfl rfl

theorem illTop11 (low : BitVec 11) : Statement (.illTop11 low) := topWord_holds 11 low (by decide) rfl rfl

theorem illTop12 (low : BitVec 12) : Statement (.illTop12 low) := topWord_holds 12 low (by decide) rfl rfl

theorem illTop13 (low : BitVec 13) : Statement (.illTop13 low) := topWord_holds 13 low (by decide) rfl rfl

theorem illTop14 (low : BitVec 14) : Statement (.illTop14 low) := topWord_holds 14 low (by decide) rfl rfl

theorem illTop15 (low : BitVec 15) : Statement (.illTop15 low) := topWord_holds 15 low (by decide) rfl rfl

theorem illTop16 (low : BitVec 16) : Statement (.illTop16 low) := topWord_holds 16 low (by decide) rfl rfl

theorem illTop17 (low : BitVec 17) : Statement (.illTop17 low) := topWord_holds 17 low (by decide) rfl rfl

theorem illTop18 (low : BitVec 18) : Statement (.illTop18 low) := topWord_holds 18 low (by decide) rfl rfl

theorem illTop19 (low : BitVec 19) : Statement (.illTop19 low) := topWord_holds 19 low (by decide) rfl rfl

theorem illTop20 (low : BitVec 20) : Statement (.illTop20 low) := topWord_holds 20 low (by decide) rfl rfl

theorem illTop21 (low : BitVec 21) : Statement (.illTop21 low) := topWord_holds 21 low (by decide) rfl rfl

theorem illTop22 (low : BitVec 22) : Statement (.illTop22 low) := topWord_holds 22 low (by decide) rfl rfl

theorem illTop23 (low : BitVec 23) : Statement (.illTop23 low) := topWord_holds 23 low (by decide) rfl rfl

theorem illTop24 (low : BitVec 24) : Statement (.illTop24 low) := topWord_holds 24 low (by decide) rfl rfl

theorem illTop25 (low : BitVec 25) : Statement (.illTop25 low) := topWord_holds 25 low (by decide) rfl rfl

theorem illTop26 (low : BitVec 26) : Statement (.illTop26 low) := topWord_holds 26 low (by decide) rfl rfl

theorem illTop27 (low : BitVec 27) : Statement (.illTop27 low) := topWord_holds 27 low (by decide) rfl rfl

theorem illTop28 (low : BitVec 28) : Statement (.illTop28 low) := topWord_holds 28 low (by decide) rfl rfl

theorem illTop29 (low : BitVec 29) : Statement (.illTop29 low) := topWord_holds 29 low (by decide) rfl rfl

theorem illTop30 (low : BitVec 30) : Statement (.illTop30 low) := topWord_holds 30 low (by decide) rfl rfl

theorem illTop31 (low : BitVec 31) : Statement (.illTop31 low) := topWord_holds 31 low (by decide) rfl rfl

end Sys2Proof.Laws.TableRow
end

