-- ==== Sys2Proof/Laws/Run.lean ====
section
/-! SUPPORT. Laws/Run.lean: how a run of several steps comes apart into its steps. -/

namespace Sys2Proof.Machine
open Sys2Proof

/-- A run starts with its first step. -/
theorem run_succ (n : Nat) {s t : State} (h : step s = .next t) :
    Host.Core.run core (n + 1) s = Host.Core.run core n t := by
  have h' : core.step s = .next t := h
  simp [Host.Core.run, h']

theorem run_one {s t : State} (h : step s = .next t) : Host.Core.run core 1 s = .next t := run_succ 0 h

/-- A run of m + n steps is a run of n steps from where the run of m steps ends. -/
theorem run_add {m : Nat} (n : Nat) {s t : State} (h : Host.Core.run core m s = .next t) :
    Host.Core.run core (m + n) s = Host.Core.run core n t := by
  induction m generalizing s with
  | zero =>
    rw [Nat.zero_add]
    cases h
    rfl
  | succ m ih =>
    obtain ⟨s', h', -⟩ := step_effect s
    rw [run_succ _ h'] at h
    rw [Nat.add_right_comm, run_succ _ h']
    exact ih h

end Sys2Proof.Machine
end

