-- ==== Sys2Proof/Laws/Stores.lean ====
section
/-! SUPPORT. Laws/Stores.lean: that what the operations write fits the stored bits of the register it goes to. -/

namespace Sys2Proof.Machine
open Sys2Proof

/-- The constraints of 00_scope.md R6, as bounds. -/
theorem wellFormed_bounds {p : Params} (h : p.wellFormed = true) :
    1 ≤ p.nMax ∧ p.nMax ≤ 32 ∧ 1 ≤ p.kMax ∧ p.kMax ≤ 24 ∧ 4 ≤ p.sampleW ∧ p.sampleW ≤ 32 ∧ 1 ≤ p.frac ∧
      p.frac ≤ p.sampleW - 2 ∧ 1 ≤ p.resqDepth := by
  simp [Params.wellFormed] at h
  omega

/-- A valid bit set below n keeps the valid bits within n. -/
theorem setBit_lt {v : Word} {i n : Nat} (hi : i < n) (h : v.toNat < 2 ^ n) : (setBit v i).toNat < 2 ^ n := by
  rw [setBit, BitVec.toNat_or]
  refine Nat.or_lt_two_pow h ?_
  rw [BitVec.toNat_shiftLeft]
  refine lt_of_le_of_lt (Nat.mod_le _ _) ?_
  rw [Nat.shiftLeft_eq]
  simp only [BitVec.toNat_ofNat, Nat.reducePow, Nat.reduceMod, one_mul]
  exact Nat.pow_lt_pow_right (by omega) hi

theorem ofNat_toNat_lt {n w : Nat} (h : n < 2 ^ w) : (BitVec.ofNat 32 n).toNat < 2 ^ w := by
  rw [BitVec.toNat_ofNat]
  exact lt_of_le_of_lt (Nat.mod_le _ _) h

/-- A channel sample stands in RX within the sample range. -/
theorem sampleWord_chan_range {p : Params} (hw : p.sampleW ≤ 32) (b : Bool) (sigma : Nat) (z : Int) :
    sampleMin p ≤ (sampleWord (chan p b sigma z)).toInt ∧ (sampleWord (chan p b sigma z)).toInt ≤ sampleMax p := by
  have hr := sat_range p (amp p b + noise p sigma z)
  rw [chan, sampleWord_toInt hw hr.1 hr.2]
  exact hr

/-- An entry written to a file keeps what holds of all its entries. -/
theorem forall_mem_set {file : List Word} {i : Nat} {v : Word} {P : Word → Prop} (hf : ∀ x ∈ file, P x) (hv : P v) :
    ∀ x ∈ file.set i v, P x := by
  intro x hx
  rcases List.mem_or_eq_of_mem_set hx with h | rfl
  · exact hf x h
  · exact hv

theorem emptyStores_grow_length (s : State) : (emptyStores s).grow.length = s.cfg.nMax := by simp [emptyStores]

theorem emptyStores_rx_length (s : State) : (emptyStores s).rx.length = s.cfg.nMax := by simp [emptyStores]

/-- Whatever the free values, an emptied row store holds rows of K_MAX bits. -/
theorem emptyStores_grow_bits (s : State) : ∀ v ∈ (emptyStores s).grow, v.toNat < 2 ^ s.cfg.kMax := by
  intro v hv
  simp only [emptyStores, List.mem_map] at hv
  obtain ⟨i, -, rfl⟩ := hv
  exact lowBits_lt _ _

/-- Whatever the free values, an emptied sample store holds samples in range. -/
theorem emptyStores_rx_bits {s : State} (h1 : 1 ≤ s.cfg.sampleW) (h32 : s.cfg.sampleW ≤ 32) :
    ∀ v ∈ (emptyStores s).rx, sampleMin s.cfg ≤ v.toInt ∧ v.toInt ≤ sampleMax s.cfg := by
  intro v hv
  simp only [emptyStores, List.mem_map] at hv
  obtain ⟨i, -, rfl⟩ := hv
  have hr := signedLow_range h1 (Config.unfilledSample s.freeCount i)
  have h := sampleWord_toInt h32 hr.1 hr.2
  rw [sampleWord] at h
  rw [h]
  exact hr

/-- What an answer does: taken up by an outstanding request, ignored otherwise. -/
theorem receiveAnswer_cases (d : Word) (s : State) :
    (∃ q, s.draw = .requested q ∧ receiveAnswer d s = { s with draw := .answered d }) ∨
      ((∀ q, s.draw ≠ .requested q) ∧ receiveAnswer d s = s) := by
  unfold receiveAnswer
  split
  · exact .inl ⟨_, ‹_›, rfl⟩
  · exact .inr ⟨‹_›, rfl⟩

end Sys2Proof.Machine
end

