-- ==== Sys2Proof/Tests/Slice0.lean ====
section
/-! SUPPORT. Tests/Slice0.lean: small checks with expected results from spec/95_test_vectors.md and the rules, and for
every obligation with hypotheses a state and operands that meet them. -/

namespace Sys2Proof.Tests
open Sys2Proof Sys2Proof.Machine

/-! ### Well-formedness: an ill-formed term for each check -/

theorem test_txn_wellformed : (Txn.read 0x1FC 4).wellFormed = true ∧ (Txn.write 0x000 4 0).wellFormed = true := by decide

theorem test_txn_misaligned : (Txn.read 0x006 4).wellFormed = false := by decide

theorem test_txn_outside : (Txn.read 0x200 4).wellFormed = false := by decide

theorem test_txn_narrow : (Txn.write 0x004 2 0).wellFormed = false := by decide

theorem test_params_wellformed : Params.reference.wellFormed = true := by decide

theorem test_params_rows :
    Params.wellFormed { Params.reference with nMax := 0 } = false ∧
    Params.wellFormed { Params.reference with nMax := 33 } = false := by decide

theorem test_params_columns :
    Params.wellFormed { Params.reference with kMax := 0 } = false ∧
    Params.wellFormed { Params.reference with kMax := 25 } = false := by decide

theorem test_params_sample :
    Params.wellFormed { Params.reference with sampleW := 3, frac := 1 } = false ∧
    Params.wellFormed { Params.reference with sampleW := 33 } = false := by decide

theorem test_params_fraction :
    Params.wellFormed { Params.reference with frac := 0 } = false ∧
    Params.wellFormed { Params.reference with frac := 15 } = false := by decide

theorem test_params_queue : Params.wellFormed { Params.reference with resqDepth := 0 } = false := by decide

/-- T_CLK > 0: no clock period is zero or negative. -/
theorem test_clock_period (c : ClockPeriod) : c.seconds ≠ 0 ∧ c.seconds ≠ -1 := by
  have h := c.positive
  constructor <;> intro he <;> rw [he] at h <;> exact absurd h (by decide)

/-! ### Decoding: a word of every row, written out from 30_encoding.md R110, R111 -/

theorem test_decode_commands :
    decode 0b0000#32 = .nop ∧ decode 0b0001#32 = .build ∧ decode 0b0010#32 = .encode ∧ decode 0b0011#32 = .decode ∧
    decode 0b0100#32 = .trial ∧ decode 0b0101#32 = .sweep := by decide

theorem test_decode_reserved_opc :
    decode 0b0110#32 = .illOpc6_7 0b0#1 ∧ decode 0b0111#32 = .illOpc6_7 0b1#1 ∧
    decode 0b1000#32 = .illOpc8_15 0b000#3 ∧ decode 0b1101#32 = .illOpc8_15 0b101#3 := by decide

theorem test_decode_top4_to_12 :
    decode 0x11#32 = .illTop4 0x1#4 ∧ decode 0x2A#32 = .illTop5 0xA#5 ∧ decode 0x7F#32 = .illTop6 0x3F#6 ∧
    decode 0x81#32 = .illTop7 0x01#7 ∧ decode 0x1C3#32 = .illTop8 0xC3#8 ∧ decode 0x200#32 = .illTop9 0x000#9 ∧
    decode 0x5A5#32 = .illTop10 0x1A5#10 ∧ decode 0x803#32 = .illTop11 0x003#11 ∧
    decode 0x1FFF#32 = .illTop12 0xFFF#12 := by decide

theorem test_decode_top13_to_21 :
    decode 0x2001#32 = .illTop13 0x0001#13 ∧ decode 0x4100#32 = .illTop14 0x0100#14 ∧
    decode 0x8001#32 = .illTop15 0x0001#15 ∧ decode 0x1A5A5#32 = .illTop16 0xA5A5#16 ∧
    decode 0x20005#32 = .illTop17 0x00005#17 ∧ decode 0x60000#32 = .illTop18 0x20000#18 ∧
    decode 0x80002#32 = .illTop19 0x00002#19 ∧ decode 0x100000#32 = .illTop20 0x00000#20 ∧
    decode 0x3FFFFF#32 = .illTop21 0x1FFFFF#21 := by decide

theorem test_decode_top22_to_31 :
    decode 0x400001#32 = .illTop22 0x000001#22 ∧ decode 0x900000#32 = .illTop23 0x100000#23 ∧
    decode 0x1000003#32 = .illTop24 0x000003#24 ∧ decode 0x2000000#32 = .illTop25 0x0000000#25 ∧
    decode 0x4000001#32 = .illTop26 0x0000001#26 ∧ decode 0xF000000#32 = .illTop27 0x7000000#27 ∧
    decode 0x10000000#32 = .illTop28 0x0000000#28 ∧ decode 0x20000004#32 = .illTop29 0x00000004#29 ∧
    decode 0x40000005#32 = .illTop30 0x00000005#30 ∧ decode 0x80000001#32 = .illTop31 0x00000001#31 := by decide

/-- The host's bits stand at the right end of the word. -/
theorem test_decodeTableWord : decodeTableWord 32 0x00000005 = some .sweep ∧ decodeTableWord 32 0x15 = some (.illTop4 5) := by
  decide

/-! ### States: the engine G1 of spec/95_test_vectors.md S1, and a run of each kind over it -/

/-- What a field of the next state holds. -/
def after {α : Type} (r : Result) (f : State → α) : Option α :=
  match r with
  | .next t => some (f t)
  | _ => none

/-- Engine G1 with K = 2, the received vector of S1, and the bounds of V-SWP-2, with no command running. -/
def g1 : State :=
  { State.reset with
    done := true, tableValid := true, gRows := 3, gCols := 2, k := 2,
    grow := [3, 1, 2] ++ List.replicate 17 0, gValid := 7, cwt := [(1, 5), (2, 3), (3, 6)],
    rx := [1024, 1024, -1024] ++ List.replicate 17 0, rxValid := 7,
    sigma := 512, sigmaStart := 512, sigmaEnd := 1024, sigmaStep := 256, trials := 2 }

/-- g1 with command i running at position p. -/
def runningAt (i : Instr) (p : Pos) : State := { g1 with done := false, busy := true, phase := .run i, pos := p }

/-- g1 with the samples rs. -/
def received (rs : List Int) : State := { g1 with rx := rs.map sampleWord ++ List.replicate (20 - rs.length) 0 }

/-- A row of the result queue. -/
def row512 : ResultRow := ⟨512, 0, 2, 9⟩

/-! ### The commands, one step each -/

/-- V-ERR-18. -/
theorem test_nop_clears_err : after (exec .nop { g1 with err := 2 }) statusWord = some 0x006 := by decide

/-- 95_test_vectors.md S1: the table (0, 5, 3, 6), from a state that holds no table. -/
theorem test_build_g1 :
    after (exec .build { g1 with tableValid := false, cwt := [] }) (fun t => (t.cwt, statusWord t)) =
      some ([(1, 5), (2, 3), (3, 6)], 0x006) := by decide

/-- V-ERR-1, V-ERR-8, V-ERR-9, V-ERR-10, V-ERR-11. -/
theorem test_build_errors :
    after (exec .build State.reset) (·.err) = some 1 ∧ after (exec .build { g1 with k := 3 }) (·.err) = some 1 ∧
    after (exec .build { g1 with gValid := 5 }) (·.err) = some 6 ∧
    after (exec .build { g1 with gRows := 21 }) (·.err) = some 1 ∧
    after (exec .build { g1 with gCols := 14 }) (·.err) = some 1 := by decide

/-- 95_test_vectors.md S1: words 1, 2 and 3. -/
theorem test_encode_g1 :
    after (exec .encode { g1 with word := 1 }) (·.cw) = some 5 ∧ after (exec .encode { g1 with word := 2 }) (·.cw) = some 3 ∧
    after (exec .encode { g1 with word := 3 }) (·.cw) = some 6 := by decide

/-- V-ERR-13, V-ERR-2. -/
theorem test_encode_errors :
    after (exec .encode { g1 with word := 4 }) statusWord = some 0x206 ∧
    after (exec .encode State.reset) statusWord = some 0x402 := by decide

/-- V-DEC-1, V-DEC-4, V-DEC-4b, V-DEC-4d: the best word, the smaller index of a tie, no wrap of the score. -/
theorem test_decode_g1 :
    after (exec .decode g1) (·.decWord) = some 2 ∧ after (exec .decode (received [0, 7, 0])) (·.decWord) = some 2 ∧
    after (exec .decode (received [-1, -1, -1])) (·.decWord) = some 0 ∧
    after (exec .decode (received [32767, 32767, 32767])) (·.decWord) = some 1 := by decide

/-- V-ERR-14. -/
theorem test_decode_unfilled : after (exec .decode { g1 with rxValid := 3 }) statusWord = some 0x606 := by decide

/-- V-TRL-4: the word is the low K bits of the answer, and its codeword is 3. -/
theorem test_trial_takes_the_word :
    after (exec .trial { runningAt .trial .takeWord with draw := .answered 0xFFFFFFFE }) (fun t => (t.word, t.cw, t.pos)) =
      some (2, 3, .drawNoise 0) := by decide

/-- V-TRL-6: coordinate 0 of a trial at SIGMA = 1024 with the answer 0x0001F600. -/
theorem test_trial_takes_the_noise :
    after (exec .trial { runningAt .trial (.takeNoise 0) with draw := .answered 0x0001F600, cw := 3, sigma := 1024 })
      (fun t => (entryAt t.rx 0, t.pos)) = some (0xFFFFFA00, .drawNoise 1) := by decide

/-- V-SWP-6, V-SWP-8, V-SWP-9, V-SWP-10. -/
theorem test_sweep_bounds :
    after (exec .sweep { runningAt .sweep .start with sigmaEnd := 512 }) statusWord = some 0x106 ∧
    after (exec .sweep { runningAt .sweep .start with sigmaStep := 0 }) statusWord = some 0x106 ∧
    after (exec .sweep { runningAt .sweep .start with trials := 0 }) statusWord = some 0x106 ∧
    after (exec .sweep { runningAt .sweep .start with sigmaStart := 0 }) statusWord = some 0x106 := by decide

/-- V-SWP-5: after level 65535 the next level 65536 ends the sweep and does not wrap. -/
theorem test_sweep_does_not_wrap :
    after (exec .sweep { runningAt .sweep .nextLevel with level := 65535, sigmaEnd := 65535, sigmaStep := 1 })
      (fun t => (t.done, t.phase)) = some (true, .idle) := by decide

/-- V-ERR-5, V-ERR-6, V-ERR-15. -/
theorem test_reserved_words :
    after (exec (decode 0x80000001) (runningAt (decode 0x80000001) .start)) statusWord = some 0x506 ∧
    after (exec (decode 0x11) (runningAt (decode 0x11) .start)) statusWord = some 0x506 ∧
    after (exec (decode 6) State.reset) statusWord = some 0x502 := by decide

/-! ### The functions of the commands -/

/-- V-ENC-5, V-ENC-6, V-ENC-7, with V-ENC-2: G2, G3, G4, and G1 with K = 1. -/
theorem test_enc :
    (List.range 8).map (encWith [1, 2, 4, 3, 6] 5 3) = [0, 20, 26, 14, 9, 29, 19, 7] ∧
    (List.range 4).map (encWith [3, 3, 3] 3 2) = [0, 7, 7, 0] ∧
    (List.range 4).map (encWith [1, 1, 0] 3 2) = [0, 0, 3, 3] ∧
    (List.range 2).map (encWith [3, 1, 2] 3 1) = [0, 3] := by decide

/-- V-CH: ties up, products of both signs, the greatest products. -/
theorem test_noise :
    noise Params.reference 512 1 = 1 ∧ noise Params.reference 512 (-1) = 0 ∧ noise Params.reference 512 (-3) = -1 ∧
    noise Params.reference 300 (-700) = -205 ∧ noise Params.reference 1 (-513) = -1 ∧
    noise Params.reference 65535 32767 = 2097056 ∧ noise Params.reference 65535 (-32768) = -2097120 := by decide

/-- V-CH: saturation at both ends, and the values that just fit. -/
theorem test_chan :
    chan Params.reference true 1024 31743 = 32767 ∧ chan Params.reference true 1024 31744 = 32767 ∧
    chan Params.reference false 1024 (-31744) = -32768 ∧ chan Params.reference false 65535 (-32768) = -32768 ∧
    chan Params.reference false 512 (-3000) = -2524 := by decide

/-- 43_simulation.md R226: the views of a row with 1 error in 2 trials. -/
theorem test_views : errorRate ⟨768, 1, 2, 0⟩ = 1 / 2 ∧ sigmaReal Params.reference ⟨768, 1, 2, 0⟩ = 3 / 4 := by
  constructor <;> simp [errorRate, sigmaReal, Params.reference]
  norm_num

/-! ### The register window (V-BUS) -/

/-- The response to transaction t. -/
def answerTo (t : Txn) (s : State) : Option Response := (hostAccess t s).responses.getLast?

/-- G1's shape with no row and no sample written (the states of V-BUS-30 and after). -/
def shaped : State := { State.reset with gRows := 3, gCols := 2 }

/-- V-BUS-1 to V-BUS-4, V-BUS-25. -/
theorem test_bus_reads_after_reset :
    answerTo (.read 0x004 4) State.reset = some ⟨.okay, 0⟩ ∧ answerTo (.read 0x008 4) State.reset = some ⟨.okay, 0x0A100D14⟩ ∧
    answerTo (.read 0x000 4) State.reset = some ⟨.okay, 0⟩ ∧ answerTo (.read 0x06C 4) State.reset = some ⟨.okay, 0⟩ ∧
    answerTo (.read 0x05C 4) State.reset = some ⟨.okay, 0⟩ := by decide

/-- V-BUS-5 to V-BUS-10, V-BUS-22, V-BUS-23, V-BUS-24. -/
theorem test_bus_errors_after_reset :
    ∀ t ∈ [Txn.read 0x070 4, .read 0x006 4, .read 0x200 4, .write 0x004 4 0, .write 0x008 4 0, .write 0x024 4 1,
        .read 0x0D0 4, .read 0x150 4, .read 0x054 4],
      answerTo t State.reset = some ⟨.error, 0⟩ := by decide

/-- V-BUS-11 to V-BUS-18: widths. -/
theorem test_bus_widths :
    answerTo (.write 0x00C 4 64) State.reset = some ⟨.error, 0⟩ ∧ (hostAccess (.write 0x00C 4 63) State.reset).gRows = 63 ∧
    answerTo (.write 0x020 4 0x2000) State.reset = some ⟨.error, 0⟩ ∧
    (hostAccess (.write 0x020 4 0x1FFF) State.reset).word = 8191 ∧
    answerTo (.write 0x030 4 0x10000) State.reset = some ⟨.error, 0⟩ ∧
    (hostAccess (.write 0x040 4 0xFFFFFFFF) State.reset).trials = 4294967295 := by decide

/-- V-BUS-31, V-BUS-32, V-BUS-34, V-BUS-35. -/
theorem test_bus_rows :
    answerTo (.read 0x084 4) shaped = some ⟨.error, 0⟩ ∧
    ((hostAccess (.write 0x084 4 1) shaped).gValid, entryAt (hostAccess (.write 0x084 4 1) shaped).grow 1) = (2, 1) ∧
    answerTo (.write 0x084 4 4) shaped = some ⟨.error, 0⟩ ∧ answerTo (.write 0x08C 4 0) shaped = some ⟨.error, 0⟩ := by
  decide

/-- V-BUS-36, V-BUS-37, V-BUS-39, V-BUS-40. -/
theorem test_bus_samples :
    answerTo (.write 0x100 4 0x00008000) shaped = some ⟨.error, 0⟩ ∧
    ((hostAccess (.write 0x100 4 0xFFFF8000) shaped).rxValid, sampleAt (hostAccess (.write 0x100 4 0xFFFF8000) shaped) 0) =
      (1, -32768) ∧
    answerTo (.read 0x104 4) shaped = some ⟨.error, 0⟩ ∧ answerTo (.write 0x10C 4 0) shaped = some ⟨.error, 0⟩ := by decide

/-- V-BUS-41: a shape write of the same value empties the stores. -/
theorem test_bus_shape :
    let t := hostAccess (.write 0x00C 4 3) g1
    (t.gValid, t.rxValid, t.tableValid) = (0, 0, false) := by decide

/-- V-BUS-50, V-BUS-51. -/
theorem test_bus_table_window :
    answerTo (.read 0x054 4) { g1 with cwtIndex := 3 } = some ⟨.okay, 6⟩ ∧
    answerTo (.read 0x054 4) { g1 with cwtIndex := 4 } = some ⟨.error, 0⟩ := by decide

/-- V-BUS-60, V-BUS-62, V-BUS-63, V-BUS-66. -/
theorem test_bus_while_busy :
    let s := { runningAt .trial .takeWord with draw := .requested (.uniform 2), resq := [row512] }
    answerTo (.read 0x004 4) s = some ⟨.okay, 0x00D⟩ ∧ answerTo (.read 0x020 4) s = some ⟨.error, 0⟩ ∧
    answerTo (.write 0x000 4 0) s = some ⟨.error, 0⟩ ∧ (hostAccess (.write 0x06C 4 1) s).resq = [] := by decide

/-- Program P6: STATUS while a sweep holds on a full queue of one row. -/
theorem test_row_hold :
    statusWord { runningAt .sweep .push with cfg := { Params.reference with resqDepth := 1 }, resq := [row512] } = 0x01D := by
  decide

/-- V-RST-3: an answer after reset is ignored, and reset ends the sweep. -/
theorem test_reset_in_a_sweep :
    let t := resetCore { runningAt .sweep .takeWord with draw := .requested (.uniform 2) }
    (receiveAnswer 5 t).draw = .none ∧ statusWord t = 0 := by decide

/-! ### Witnesses: each obligation's hypotheses, met together -/

/-- g1 with command i running at its start (or none), and moves to come. -/
def g1Running (ph : Phase) (ms : List Move) : State :=
  { g1 with
    phase := ph, busy := decide (ph ≠ .idle), done := decide (ph = .idle), tableValid := decide (ph ≠ .run .build),
    inputs := ms }

theorem engine_g1 : EngineInv g1 where
  table_form := by decide
  rows       := fun _ => by decide
  columns    := fun _ => by decide
  filled     := fun _ => by decide
  table      := fun _ => by decide

theorem stores_g1 : StoreInv g1 where
  grow_length   := by decide
  grow_bits     := by simp [g1, State.reset, State.resetFor, Params.reference]
  rx_length     := by decide
  rx_bits       := by simp [g1, State.reset, State.resetFor, Params.reference, sampleMin, sampleMax]
  gValid_bits   := by decide
  rxValid_bits  := by decide
  word_bits     := by decide
  cw_bits       := by decide
  decWord_bits  := by decide
  cwtIndex_bits := by decide
  sigma_bits    := by decide
  start_bits    := by decide
  end_bits      := by decide
  step_bits     := by decide

theorem inv_g1Running (ph : Phase) (ms : List Move) : Inv (g1Running ph ms) where
  params  := (by decide : g1.cfg.wellFormed = true)
  control := by constructor <;> simp [g1Running, g1, State.reset, State.resetFor]
  run     := by constructor <;> simp [g1Running, g1, State.reset, State.resetFor]
  engine  := ⟨engine_g1.table_form, fun _ => engine_g1.rows rfl, fun _ => engine_g1.columns rfl,
    fun _ => engine_g1.filled rfl, fun _ => engine_g1.table rfl⟩
  stores  := by
    obtain ⟨h1, h2, h3, h4, h5, h6, h7, h8, h9, h10, h11, h12, h13, h14⟩ := stores_g1
    exact ⟨h1, h2, h3, h4, h5, h6, h7, h8, h9, h10, h11, h12, h13, h14⟩
  sweep   := by constructor <;> simp [g1Running, g1, State.reset, State.resetFor]
  queue   := by constructor <;> simp [g1Running, g1, State.reset, State.resetFor]

theorem witness_StepTakesTheNextMove :
    (g1Running .idle [.host (.read 4 4)]).inputs = .host (.read 4 4) :: [] ∧
    (g1Running .idle [.answer 7]).inputs = .answer 7 :: [] ∧ (g1Running .idle [.reset]).inputs = .reset :: [] ∧
    ((g1Running (.run .nop) [.sequencer]).phase = .run .nop ∧ (g1Running (.run .nop) [.sequencer]).inputs = .sequencer :: []) ∧
    ((runningAt .nop .start).phase = .run .nop ∧ (runningAt .nop .start).inputs = []) := by decide

theorem witness_WriteToCmdStartsTheCommand :
    let ms := [Move.host (.write 0 4 5)]
    ((g1Running .idle ms).inputs = .host (.write 0 4 5) :: [] ∧ (g1Running .idle ms).busy = false) ∧
    ((g1Running (.run .trial) ms).inputs = .host (.write 0 4 5) :: [] ∧ (g1Running (.run .trial) ms).busy = true) := by decide

theorem witness_FetchedWordRunsNext : decodeTableWord 32 1 = some .build ∧ decodeTableWord 32 6 = some (.illOpc6_7 0) := by
  decide

theorem witness_IdleCoreKeepsItsState :
    (g1.phase = .idle ∧ g1.inputs = []) ∧
    ((g1Running .idle [.sequencer]).phase = .idle ∧ (g1Running .idle [.sequencer]).inputs = .sequencer :: []) := by decide

theorem witness_ReservedWordsCompleteWithIllcmd :
    let i := Instr.illTop31 0
    (i ≠ .nop ∧ i ≠ .build ∧ i ≠ .encode ∧ i ≠ .decode ∧ i ≠ .trial ∧ i ≠ .sweep) ∧ 5 < (6#32).toNat ∧
    5 < (0xFFFFFFFF#32).toNat := by decide

/-- Each clause, with G_ROWS = 0 and N_MAX + 1, K = 0 and G_COLS + 1, and G_ROWS = N_MAX. -/
theorem witness_BuildConstructsTheEngine :
    (g1.cwt.wf = true ∧ badShape { g1 with gRows := 0 } ∧ badShape { g1 with gRows := 21 } ∧ badShape { g1 with k := 0 } ∧
      badShape { g1 with k := 3 }) ∧
    (¬ badShape { g1 with gRows := 20 } ∧ ∃ i, i < 20 ∧ g1.gValid.getLsbD i = false) ∧
    (¬ badShape g1 ∧ ∀ i, i < g1.gRows.toNat → g1.gValid.getLsbD i = true) := by
  unfold badShape
  refine ⟨by decide, ⟨by decide, 3, by decide⟩, by decide⟩

theorem witness_CodewordIsTheMatrixProduct : 0 < 32 ∧ 31 < 32 := by decide

/-- Without an engine, at the first word outside the code, and at the last inside it. -/
theorem witness_EncodeWritesTheCodeword :
    State.reset.tableValid = false ∧ (g1.tableValid = true ∧ 2 ^ g1.k.toNat ≤ (4#32).toNat) ∧
    (3#32).toNat < 2 ^ g1.k.toNat := by decide

theorem witness_CodesAreNested : 3 < 2 ^ 2 ∧ (1 < 2 ∧ 2 < 3 ∧ 2 < 32) := by decide

theorem witness_DecodeReturnsTheLeastBestWord :
    State.reset.tableValid = false ∧ (g1.tableValid = true ∧ ∃ j, j < g1.gRows.toNat ∧ (3#32).getLsbD j = false) ∧
    (g1.tableValid = true ∧ ∀ j, j < g1.gRows.toNat → g1.rxValid.getLsbD j = true) :=
  ⟨by decide, ⟨by decide, 2, by decide⟩, by decide⟩

theorem witness_ScoreIsTheBoundedCorrelation :
    Inv (g1Running .idle []) ∧ EngineInv g1 ∧ g1.tableValid = true ∧ (g1Running .idle []).tableValid = true :=
  ⟨inv_g1Running _ _, engine_g1, rfl, rfl⟩

theorem witness_DecodedWordIsInRange :
    (∃ t, exec .decode g1 = .next t ∧ t.err = 0) ∧
    ((runningAt .trial .judge).pos = .judge ∧ ∃ t, exec .trial (runningAt .trial .judge) = .next t) ∧
    ((runningAt .sweep .judge).pos = .judge ∧ ∃ t, exec .sweep (runningAt .sweep .judge) = .next t) :=
  ⟨⟨_, rfl, rfl⟩, ⟨rfl, _, rfl⟩, rfl, _, rfl⟩

theorem witness_NoiselessRoundTripIsExact :
    EngineInv g1 ∧ g1.tableValid = true ∧
    (∀ a, a < 2 ^ g1.k.toNat → ∀ b, b < 2 ^ g1.k.toNat → enc g1 a = enc g1 b → a = b) ∧ 2 < 2 ^ g1.k.toNat ∧
    ∀ j, j < g1.gRows.toNat → (entryAt g1.rx j).toInt = amp g1.cfg ((enc g1 2).getLsbD j) :=
  ⟨engine_g1, rfl, by decide, by decide, by decide⟩

theorem witness_ZeroAndNegativeVectorsDecodeToZero :
    (∀ j, j < g1.gRows.toNat → (entryAt (received [0, 0, 0]).rx j).toInt = 0) ∧
    (EngineInv (received [-1, -1, -1]) ∧ (received [-1, -1, -1]).tableValid = true ∧
      ∀ i, i < 2 ^ g1.k.toNat → 1 ≤ i → score (received [-1, -1, -1]) i ≤ 0) :=
  ⟨by decide, ⟨engine_g1.table_form, engine_g1.rows, engine_g1.columns, engine_g1.filled, engine_g1.table⟩, rfl, by decide⟩

theorem witness_channel : 1 ≤ Params.reference.frac ∧ Params.reference.wellFormed = true ∧ 1 ≤ State.reset.cfg.sampleW := by
  decide

theorem witness_TrialChecksForAnEngine :
    (State.reset.pos = .start ∧ State.reset.tableValid = false) ∧
    ((runningAt .trial .start).pos = .start ∧ (runningAt .trial .start).tableValid = true) := by decide

theorem witness_DrawsAreRequestedAndAwaited :
    (runningAt .sweep .drawWord).pos = .drawWord ∧ (runningAt .trial (.drawNoise 2)).pos = .drawNoise 2 ∧
    ((runningAt .trial .takeWord).pos = .takeWord ∧ ∀ d, (runningAt .trial .takeWord).draw ≠ .answered d) ∧
    ((runningAt .sweep (.takeNoise 2)).pos = .takeNoise 2 ∧
      ∀ d, { runningAt .sweep (.takeNoise 2) with draw := Draw.requested .normal }.draw ≠ .answered d) :=
  ⟨rfl, rfl, ⟨rfl, fun _ h => by cases h⟩, rfl, fun _ h => by cases h⟩

/-- The word, and the first and the last coordinate. -/
theorem witness_AnswersFillWordAndSamples :
    ({ runningAt .trial .takeWord with draw := .answered 2 }.draw = .answered 2 ∧ (runningAt .trial .takeWord).pos = .takeWord) ∧
    ({ runningAt .sweep (.takeNoise 0) with draw := .answered 7 }.draw = .answered 7 ∧
      (runningAt .sweep (.takeNoise 0)).pos = .takeNoise 0) ∧
    (runningAt .sweep (.takeNoise 2)).pos = .takeNoise 2 := by decide

theorem witness_TrialEndsWithItsErrorFlag : (runningAt .trial .judge).pos = .judge := rfl

theorem witness_TrialRunsFromStartToFinish :
    let ms := Move.sequencer :: trialTurns 2 [-1024, 512, 3072]
    let s := g1Running (.run .trial) ms
    Inv s ∧ s.phase = .run .trial ∧ s.pos = .start ∧ s.tableValid = true ∧
    ([-1024, 512, 3072] : List Word).length = s.gRows.toNat ∧ s.inputs = ms :=
  ⟨inv_g1Running _ _, rfl, rfl, rfl, rfl, rfl⟩

theorem witness_SweepChecksThenBegins :
    ((runningAt .sweep .start).pos = .start ∧ State.reset.tableValid = false) ∧
    (g1.tableValid = true ∧ badSweep { g1 with sigmaEnd := 512 } ∧ badSweep { g1 with trials := 0 }) ∧
    (g1.tableValid = true ∧ ¬ badSweep { g1 with sigmaEnd := 513 }) := by unfold badSweep; decide

theorem witness_SweepTalliesEachTrial : (runningAt .sweep .judge).pos = .judge := rfl

/-- With room for one row, and with none. -/
theorem witness_SweepPushesOrHolds :
    (runningAt .sweep .push).pos = .push ∧ (List.replicate 3 row512).length < g1.cfg.resqDepth ∧
    g1.cfg.resqDepth ≤ (List.replicate 4 row512).length := by decide

/-- The next level exactly at SIGMA_END, and one past it. -/
theorem witness_SweepAdvancesOrCompletes :
    let s := { runningAt .sweep .nextLevel with level := 768 }
    (s.pos = .nextLevel ∧ s.level + s.sigmaStep.toNat ≤ s.sigmaEnd.toNat) ∧ (1023#32).toNat < s.level + s.sigmaStep.toNat := by
  decide

theorem witness_SweepEmitsOneRowPerLevel :
    let z : Nat → Nat → List Word := fun _ _ => [7, 8, 9]
    let s := g1Running (.run .sweep) (sweepTurns (fun _ _ => 1) z 3 2)
    Inv s ∧ s.phase = .run .sweep ∧ s.pos = .start ∧ s.tableValid = true ∧ ¬ badSweep s ∧
    3 = (s.sigmaEnd.toNat - s.sigmaStart.toNat) / s.sigmaStep.toNat + 1 ∧ s.resq.length + 3 ≤ s.cfg.resqDepth ∧
    (∀ m r, (z m r).length = s.gRows.toNat) ∧ s.inputs = sweepTurns (fun _ _ => 1) z 3 s.trials.toNat :=
  ⟨inv_g1Running _ _, rfl, rfl, rfl, by unfold badSweep; decide, by decide, by decide, fun _ _ => rfl, rfl⟩

theorem witness_AnswerNeedsARequest :
    { g1 with draw := .requested .normal }.draw = .requested .normal ∧ ∀ q, g1.draw ≠ .requested q :=
  ⟨rfl, fun _ h => by cases h⟩

/-- Each ill-formed shape, and the first and last offset of each gap. -/
theorem witness_MisalignedAndUnmappedAreRefused :
    State.reset.cfg.wellFormed = true ∧ (Txn.read 2 4).wellFormed = false ∧ (Txn.write 0 2 0).wellFormed = false ∧
    (Txn.read 0x200 4).wellFormed = false ∧
    (∀ a ∈ [0x070, 0x07C, 0x0D0, 0x0FC, 0x150, 0x1FC],
      (0x070 ≤ a ∧ a < 0x080) ∨ (0x080 + 4 * State.reset.cfg.nMax ≤ a ∧ a < 0x100) ∨ 0x100 + 4 * State.reset.cfg.nMax ≤ a) := by
  decide

theorem witness_RefusalsAndReadsChangeNothing :
    (hostAccess (.read 0x070 4) g1).responses = g1.responses ++ [⟨.error, 0⟩] := by decide

theorem witness_BusyAdmitsOnlyStatusAndRows :
    (runningAt .trial .takeWord).busy = true ∧ 0x068 ∈ [0x004, 0x008, 0x058, 0x05C, 0x060, 0x064, 0x068] ∧
    0x000 ∉ [0x004, 0x008, 0x058, 0x05C, 0x060, 0x064, 0x068] ∧ 0x000 ≠ 0x06C := by decide

theorem witness_idleAccess : g1.busy = false ∧ g1.cfg.wellFormed = true ∧ 0 < g1.cfg.nMax ∧ 19 < g1.cfg.nMax ∧ EngineInv g1 :=
  ⟨rfl, rfl, by decide, by decide, engine_g1⟩

theorem witness_OnlyBuildMakesAnEngine :
    let s := { runningAt .build .start with tableValid := false, cwt := [] }
    ∃ t, step s = .next t ∧ s.tableValid = false ∧ t.tableValid = true ∧ t.cwt ≠ s.cwt :=
  ⟨_, rfl, rfl, rfl, by decide⟩

/-- The reset disjunct's case: a step that empties a table. -/
theorem witness_OnlyBuildWritesTheTable :
    ∃ t, step { g1 with inputs := [.reset] } = .next t ∧ t.cwt ≠ g1.cwt := ⟨_, rfl, by decide⟩

/-- Each way the queue changes, from a queue of one row: a push, a pop, a reset. -/
theorem witness_QueueIsFirstInFirstOut :
    let push := { runningAt .sweep .push with resq := [row512] }
    let pop := { push with inputs := [.host (.write 0x06C 4 0x11)] }
    let clear := { push with inputs := [.reset] }
    (∃ t, step push = .next t ∧ t.resq.length = 2) ∧ (∃ t, step pop = .next t ∧ t.resq = []) ∧
    ∃ t, step clear = .next t ∧ t.resq = [] :=
  ⟨⟨_, rfl, by decide⟩, ⟨_, rfl, by decide⟩, ⟨_, rfl, by decide⟩⟩

theorem witness_RowsLeaveAtTheHead : g1.resq.length < 2 ^ 32 := by decide

/-- A row that counted no cycle, and one that counted some. -/
theorem witness_ResultFieldsAreInRange :
    let s := { g1Running .idle [] with resq := [row512, { row512 with cycles := 0 }] }
    let _tClk : ClockPeriod := ⟨1, by decide⟩
    Inv s ∧ (∃ r ∈ s.resq, r.cycles = 0) ∧ ∃ r ∈ s.resq, r.cycles ≠ 0 := by
  obtain ⟨h1, h2, h3, h4, h5, h6, -⟩ := inv_g1Running .idle []
  obtain ⟨c1, c2, c3, c4⟩ := h2
  obtain ⟨r1, r2, r3, r4, r5, r6, r7, r8⟩ := h3
  obtain ⟨e1, e2, e3, e4, e5⟩ := h4
  obtain ⟨s1, s2, s3, s4, s5, s6, s7, s8, s9, s10, s11, s12, s13, s14⟩ := h5
  obtain ⟨w1, w2, w3⟩ := h6
  exact ⟨⟨h1, ⟨c1, c2, c3, c4⟩, ⟨r1, r2, r3, r4, r5, r6, r7, r8⟩, ⟨e1, e2, e3, e4, e5⟩,
    ⟨s1, s2, s3, s4, s5, s6, s7, s8, s9, s10, s11, s12, s13, s14⟩, ⟨w1, w2, w3⟩, by decide, by decide⟩, by decide, by decide⟩

theorem witness_CommandsKeepTheEngine : ∃ t, Instr.decode ≠ .build ∧ exec .decode g1 = .next t := ⟨_, by decide, rfl⟩

/-- For the statements about every step: a step from a state that meets the invariant. -/
theorem witness_WholeInvariantIsKept : ∃ t, Inv (g1Running (.run .sweep) []) ∧ step (g1Running (.run .sweep) []) = .next t :=
  ⟨_, inv_g1Running _ _, rfl⟩

theorem witness_EngineInvariantIsKept : ∃ t, EngineInv g1 ∧ step g1 = .next t := ⟨_, engine_g1, rfl⟩

theorem witness_ResetMeetsTheWholeInvariant :
    Params.wellFormed ⟨1, 1, 4, 1, 1⟩ = true ∧ Params.wellFormed ⟨32, 24, 32, 30, 4⟩ = true := by decide

end Sys2Proof.Tests
end

/-! Proofs about the state's registers (10_state.md): STATUS and PARAM. -/

namespace Sys2Proof.Machine
open Sys2Proof

/-! ### Registers that answer busy or not -/

/-- A read that BUSY never refuses (20_memory.md R88) hands back the register's value and changes nothing. -/
theorem hostAccess_read_anytime {s : State} {a : Nat} {r : Reg} {v : Word} (ha : a % 4 = 0)
    (hr : regAt s.cfg a = some r) (hb : readWhileBusy r = true) (hv : readReg s r = .ok v) :
    hostAccess (.read a 4) s = answeredOnly ⟨.okay, v⟩ s := by
  rw [hostAccess_read ha hr, if_neg (by simp [hb]), hv]
  rfl

/-- A write to a read-only register is refused, busy or not (20_memory.md R86, R88). -/
theorem hostAccess_write_readOnly {s : State} {a : Nat} {r : Reg} (v : Word) (ha : a % 4 = 0)
    (hr : regAt s.cfg a = some r) (hro : accessOf r = .readOnly) :
    hostAccess (.write a 4 v) s = answeredOnly ⟨.error, 0⟩ s := by
  rw [hostAccess_write ha hr, if_pos (.inr (.inl hro))]
  rfl

theorem regAt_status (p : Params) : regAt p 0x004 = some .status := regAt_low (by decide)

theorem regAt_param (p : Params) : regAt p 0x008 = some .param := regAt_low (by decide)

/-! ### The words STATUS and PARAM read as -/

/-- A bit of a word is known from the binary digit of its number. -/
theorem getLsbD_of_digit {v : Word} {i : Nat} {b : Bool} (h : v.toNat / 2 ^ i % 2 = b.toNat) : v.getLsbD i = b := by
  rw [BitVec.getLsbD, Nat.testBit_eq_decide_div_mod_eq, h]
  cases b <;> rfl

/-- The number STATUS reads as, digit by digit: its fields neither overlap nor leave the 32 bits (10_state.md R22). -/
theorem statusWord_digits (s : State) :
    (statusWord s).toNat / 2 ^ 0 % 2 = s.busy.toNat ∧ (statusWord s).toNat / 2 ^ 1 % 2 = s.done.toNat ∧
      (statusWord s).toNat / 2 ^ 2 % 2 = s.tableValid.toNat ∧ (statusWord s).toNat / 2 ^ 3 % 2 = (rowAvail s).toNat ∧
      (statusWord s).toNat / 2 ^ 4 % 2 = (rowHold s).toNat ∧ (statusWord s).toNat / 2 ^ 5 % 2 = 0 ∧
      (statusWord s).toNat / 2 ^ 6 % 2 = 0 ∧ (statusWord s).toNat / 2 ^ 7 % 2 = 0 ∧
      (statusWord s).toNat / 2 ^ 8 = s.err.toNat := by
  have hbusy := s.busy.toNat_lt
  have hdone := s.done.toNat_lt
  have htable := s.tableValid.toNat_lt
  have havail := (rowAvail s).toNat_lt
  have hhold := (rowHold s).toNat_lt
  have herr := s.err.isLt
  rw [statusWord, BitVec.toNat_ofNat]
  refine ⟨?_, ?_, ?_, ?_, ?_, ?_, ?_, ?_, ?_⟩ <;> omega

theorem rowAvail_eq (s : State) : rowAvail s = decide (s.resq ≠ []) :=
  decide_eq_decide.mpr (Nat.one_le_iff_ne_zero.trans (not_congr List.length_eq_zero_iff))

theorem rowHold_eq (s : State) :
    rowHold s =
      decide (s.busy = true ∧ s.phase = .run .sweep ∧ s.pos = .push ∧ s.resq.length = s.cfg.resqDepth) := by
  simp [rowHold, Bool.and_assoc]

/-- Each byte of PARAM is one parameter: the constraints of 00_scope.md R6 keep them apart (10_state.md R28). -/
theorem paramWord_bytes {p : Params} (h : p.wellFormed = true) :
    (paramWord p).toNat % 2 ^ 8 = p.nMax ∧ (paramWord p).toNat / 2 ^ 8 % 2 ^ 8 = p.kMax ∧
      (paramWord p).toNat / 2 ^ 16 % 2 ^ 8 = p.sampleW ∧ (paramWord p).toNat / 2 ^ 24 = p.frac := by
  obtain ⟨-, hn, -, hk, -, hw, -, hf, -⟩ := wellFormed_bounds h
  rw [paramWord, BitVec.toNat_ofNat]
  refine ⟨?_, ?_, ?_, ?_⟩ <;> omega

/-! ### The obligations -/

/-- Settles O49: the word the read hands back is known from its digits, and the two computed flags are what R26 says. -/
theorem statusReadsItsFields : Obligations.StatusReadsItsFields := by
  intro s
  have hreg := regAt_status s.cfg
  obtain ⟨hbusy, hdone, htable, havail, hhold, h5, h6, h7, herr⟩ := statusWord_digits s
  refine ⟨⟨statusWord s, hostAccess_read_anytime rfl hreg rfl rfl, getLsbD_of_digit hbusy, getLsbD_of_digit hdone,
    getLsbD_of_digit htable, ?_, ?_, ?_, getLsbD_of_digit h5, getLsbD_of_digit h6, getLsbD_of_digit h7⟩,
    fun v => hostAccess_write_readOnly v rfl hreg rfl⟩
  · rw [getLsbD_of_digit havail, rowAvail_eq]
  · rw [getLsbD_of_digit hhold, rowHold_eq]
  · rw [BitVec.toNat_ushiftRight, Nat.shiftRight_eq_div_pow, herr]

/-- Settles O50, byte by byte of the word that the read hands back. -/
theorem paramReadsTheParameters : Obligations.ParamReadsTheParameters := by
  refine ⟨fun s hwf => ⟨⟨paramWord s.cfg, ?_, paramWord_bytes hwf⟩, fun v => ?_⟩, by decide⟩
  · exact hostAccess_read_anytime rfl (regAt_param s.cfg) rfl rfl
  · exact hostAccess_write_readOnly v rfl (regAt_param s.cfg) rfl

end Sys2Proof.Machine

/-! Proofs about the host's transactions (20_memory.md): the refused offsets and sizes (R83, R84), and what BUSY admits
(R88). -/

namespace Sys2Proof.Machine
open Sys2Proof

/-! ### Offsets that hold no register -/

/-- The three gaps of the window: after the single registers, after the rows and after the samples. In an instance with at
most 32 rows the samples begin past the rows (20_memory.md R82, R83). -/
theorem regAt_gap {p : Params} (hp : p.nMax ≤ 32) {a : Nat}
    (h : (0x070 ≤ a ∧ a < 0x080) ∨ (0x080 + 4 * p.nMax ≤ a ∧ a < 0x100) ∨ 0x100 + 4 * p.nMax ≤ a) : regAt p a = none :=
  regAt_none (by omega) (by omega) (by omega)

/-- An ill-formed transaction is misaligned, narrow, or past the last sample, where nothing is mapped. -/
theorem illFormed_cases {p : Params} (hp : p.nMax ≤ 32) {t : Txn} (h : t.wellFormed = false) :
    t.offset % 4 ≠ 0 ∨ t.size ≠ 4 ∨ regAt p t.offset = none := by
  by_cases hinside : t.offset ≤ 0x1FC
  · simp only [Txn.wellFormed, Bool.and_eq_false_iff, decide_eq_false_iff_not] at h
    tauto
  · exact .inr (.inr (regAt_gap hp (by omega)))

/-- A transaction is refused for its offset or its size, or it is aligned and reaches a register. -/
theorem refused_or_mapped (s : State) (a n : Nat) :
    (a % 4 ≠ 0 ∨ n ≠ 4 ∨ regAt s.cfg a = none) ∨ ∃ r, a % 4 = 0 ∧ n = 4 ∧ regAt s.cfg a = some r := by
  cases regAt s.cfg a with
  | none => exact .inl (.inr (.inr rfl))
  | some r =>
    by_cases h : a % 4 = 0 ∧ n = 4
    · exact .inr ⟨r, h.1, h.2, rfl⟩
    · exact .inl (by tauto)

/-! ### What BUSY admits -/

/-- The offsets of the registers that `readWhileBusy` names: STATUS, PARAM and the RES registers that are read. -/
def busyReadOffsets : List Nat := [0x004, 0x008, 0x058, 0x05C, 0x060, 0x064, 0x068]

theorem windowTable_readWhileBusy : ∀ e ∈ windowTable, readWhileBusy e.2 = true → e.1 ∈ busyReadOffsets := by decide

theorem lookup_busyReadOffsets :
    ∀ a ∈ busyReadOffsets, a % 4 = 0 ∧ a < 0x080 ∧ (windowTable.lookup a).any readWhileBusy = true := by decide

/-- A register that BUSY lets be read stands at one of `busyReadOffsets`: no row and no sample is one. -/
theorem mem_busyReadOffsets {p : Params} {a : Nat} {r : Reg} (hr : regAt p a = some r) (hb : readWhileBusy r = true) :
    a ∈ busyReadOffsets := by
  rcases regAt_cases hr with ⟨i, -, rfl, -⟩ | ⟨j, -, rfl, -⟩ | hm
  · cases hb
  · cases hb
  · exact windowTable_readWhileBusy _ hm hb

theorem regAt_of_mem_busyReadOffsets (p : Params) {a : Nat} (h : a ∈ busyReadOffsets) :
    a % 4 = 0 ∧ ∃ r, regAt p a = some r ∧ readWhileBusy r = true := by
  obtain ⟨ha, hlow, hany⟩ := lookup_busyReadOffsets a h
  rw [← regAt_low hlow, Option.any_eq_true] at hany
  exact ⟨ha, hany⟩

/-- The registers that BUSY lets be read have no check of their own. -/
theorem readReg_ok_of_readWhileBusy (s : State) {r : Reg} (h : readWhileBusy r = true) : ∃ v, readReg s r = .ok v := by
  cases r with
  | status | param | resLevel | resSigma | resErrors | resTrials | resCycles => exact ⟨_, rfl⟩
  | _ => cases h

theorem eq_resPop_of_writeWhileBusy {r : Reg} (h : writeWhileBusy r = true) : r = .resPop := by
  cases r with
  | resPop => rfl
  | _ => cases h

/-- While BUSY = 1 a read is refused unless it reaches a register that BUSY lets be read. -/
theorem hostAccess_read_busy {s : State} (hbusy : s.busy = true) {a : Nat} (n : Nat)
    (h : ∀ r, regAt s.cfg a = some r → readWhileBusy r = false) :
    hostAccess (.read a n) s = answeredOnly ⟨.error, 0⟩ s := by
  rcases refused_or_mapped s a n with href | ⟨r, ha, rfl, hr⟩
  · exact (hostAccess_refused href 0).1
  · rw [hostAccess_read ha hr, if_pos ⟨hbusy, h r hr⟩]
    rfl

/-- While BUSY = 1 a write is refused unless it reaches RES_POP. -/
theorem hostAccess_write_busy {s : State} (hbusy : s.busy = true) {a : Nat} (n : Nat) (v : Word)
    (h : ∀ r, regAt s.cfg a = some r → writeWhileBusy r = false) :
    hostAccess (.write a n v) s = answeredOnly ⟨.error, 0⟩ s := by
  rcases refused_or_mapped s a n with href | ⟨r, ha, rfl, hr⟩
  · exact (hostAccess_refused href v).2
  · rw [hostAccess_write ha hr, if_pos (.inl ⟨hbusy, h r hr⟩)]
    rfl

/-- A write of RES_POP is answered OKAY at any time, and pops when bit 0 is set (43_simulation.md R208). -/
theorem hostAccess_write_resPop (s : State) (v : Word) :
    hostAccess (.write 0x06C 4 v) s = answeredOnly ⟨.okay, 0⟩ (if v.getLsbD 0 = true then popRow s else s) := by
  have hr : regAt s.cfg 0x06C = some .resPop := regAt_low (by decide)
  rw [hostAccess_write rfl hr, if_neg (by simp [writeWhileBusy, accessOf, fits])]
  rfl

/-! ### The obligations -/

/-- Settles O38: such an access is misaligned, narrow or reaches no register. -/
theorem misalignedAndUnmappedAreRefused : Obligations.MisalignedAndUnmappedAreRefused := by
  intro s hwf
  obtain ⟨-, hn, -⟩ := wellFormed_bounds hwf
  refine ⟨fun t ht => ?_, fun a v hgap => hostAccess_refused (.inr (.inr (regAt_gap hn hgap))) v⟩
  have href := illFormed_cases hn ht
  cases t with
  | read a n => exact (hostAccess_refused href 0).1
  | write a n v => exact (hostAccess_refused href v).2

/-- Settles O40: the admitted offsets are exactly those of the registers that pass the BUSY check. -/
theorem busyAdmitsOnlyStatusAndRows : Obligations.BusyAdmitsOnlyStatusAndRows := by
  intro s hbusy
  refine ⟨fun a ha => ?_, fun a n ha => ?_, fun v => ?_, fun a n v ha => ?_⟩
  · obtain ⟨hal, r, hr, hb⟩ := regAt_of_mem_busyReadOffsets s.cfg ha
    obtain ⟨v, hv⟩ := readReg_ok_of_readWhileBusy s hb
    exact ⟨v, hostAccess_read_anytime hal hr hb hv⟩
  · exact hostAccess_read_busy hbusy n fun r hr => Bool.eq_false_iff.mpr fun hb => ha (mem_busyReadOffsets hr hb)
  · rw [hostAccess_write_resPop]
    cases v.getLsbD 0 <;> rfl
  · refine hostAccess_write_busy hbusy n v fun r hr => Bool.eq_false_iff.mpr fun hb => ha ?_
    exact regAt_resPop (eq_resPop_of_writeWhileBusy hb ▸ hr)

end Sys2Proof.Machine

/-! Proofs about the command word (30_encoding.md): the six commands (R110). -/

namespace Sys2Proof.Machine
open Sys2Proof

/-! ### Command words and reserved words -/

/-- The words above 5 are reserved: none of them decodes to a command (30_encoding.md R111). -/
theorem isCommand_decode_of_ge {w : Word} (h : 6 ≤ w.toNat) : isCommand (decode w) = false := by
  rw [decode, if_neg (by omega), if_neg (by omega), if_neg (by omega), if_neg (by omega), if_neg (by omega),
    if_neg (by omega)]
  simp only [apply_ite isCommand]
  simp only [isCommand, ite_self]

theorem encode_decode_of_lt {w : Word} (h : w.toNat < 6) : encode (decode w) = w := by
  obtain rfl | rfl | rfl | rfl | rfl | rfl : w = 0#32 ∨ w = 1#32 ∨ w = 2#32 ∨ w = 3#32 ∨ w = 4#32 ∨ w = 5#32 := by
    bv_omega
  all_goals rfl

theorem decode_encode_of_isCommand {i : Instr} (hi : isCommand i = true) : decode (encode i) = i := by
  cases i with
  | nop | build | encode | decode | trial | sweep => rfl
  | _ => cases hi

/-- A command is decoded from its own word and from no other: the decoder matches the whole word
(30_encoding.md R110). -/
theorem decode_eq_command_iff {w : Word} {i : Instr} (hi : isCommand i = true) : decode w = i ↔ w = encode i := by
  constructor
  · rintro rfl
    have hlt : w.toNat < 6 := by
      by_contra hge
      simp [isCommand_decode_of_ge (Nat.le_of_not_lt hge)] at hi
    exact (encode_decode_of_lt hlt).symm
  · rintro rfl
    exact decode_encode_of_isCommand hi

/-! ### The obligations -/

/-- Settles O2: the command words are the encoder's words for the six commands. -/
theorem commandWordsAreMatchedWhole : Obligations.CommandWordsAreMatchedWhole := fun _ =>
  ⟨decode_eq_command_iff rfl, decode_eq_command_iff rfl, decode_eq_command_iff rfl, decode_eq_command_iff rfl,
    decode_eq_command_iff rfl, decode_eq_command_iff rfl⟩

end Sys2Proof.Machine

/-! Proofs about the container's registers (40_container_access.md): rows, samples, shape, K, the table window and the
plain registers. -/

namespace Sys2Proof.Machine
open Sys2Proof

/-! ### Accesses with a condition -/

/-- A single register's offset is aligned and lies below the register files (20_memory.md R82). -/
theorem windowTable_offsets : ∀ e ∈ windowTable, e.1 % 4 = 0 ∧ e.1 < 0x080 := by decide

theorem regAt_of_lookup (p : Params) {a : Nat} {r : Reg} (h : windowTable.lookup a = some r) :
    a % 4 = 0 ∧ regAt p a = some r := by
  obtain ⟨hal, hlow⟩ := windowTable_offsets _ (lookup_mem h)
  exact ⟨hal, (regAt_low hlow).trans h⟩

section
variable {s : State} {a : Nat} {r : Reg} {C : Prop} [Decidable C]

/-- A read of a register that is not read while BUSY = 1 answers exactly when the core is idle and the register's own
condition C holds (20_memory.md R88, 60_exceptions.md R246). -/
theorem hostAccess_read_if {x : Word} (ha : a % 4 = 0) (hr : regAt s.cfg a = some r) (hb : readWhileBusy r = false)
    (hok : C → readReg s r = .ok x) (herr : ¬ C → ∃ e, readReg s r = .error e) :
    hostAccess (.read a 4) s =
      if s.busy = false ∧ C then answeredOnly ⟨.okay, x⟩ s else answeredOnly ⟨.error, 0⟩ s := by
  rw [hostAccess_read ha hr]
  by_cases hbusy : s.busy = true
  · rw [if_pos ⟨hbusy, hb⟩, if_neg (by simp [hbusy])]
    rfl
  · have hidle : s.busy = false := Bool.eq_false_iff.mpr hbusy
    rw [if_neg fun h => hbusy h.1]
    by_cases hC : C
    · rw [if_pos ⟨hidle, hC⟩, hok hC]
      rfl
    · obtain ⟨e, he⟩ := herr hC
      rw [if_neg fun h => hC h.2, he]
      rfl

/-- A write of a read-write register is taken exactly when the core is idle and the condition C, of the width and the
register's own checks together, holds (20_memory.md R87, R88, 60_exceptions.md R246). -/
theorem hostAccess_write_if {v : Word} {s' : State} (ha : a % 4 = 0) (hr : regAt s.cfg a = some r)
    (hrw : accessOf r = .readWrite) (hok : C → fits s.cfg r v = true ∧ writeReg s v r = .ok s')
    (herr : ¬ C → fits s.cfg r v = false ∨ ∃ e, writeReg s v r = .error e) :
    hostAccess (.write a 4 v) s =
      if s.busy = false ∧ C then answeredOnly ⟨.okay, 0⟩ s' else answeredOnly ⟨.error, 0⟩ s := by
  have hro : accessOf r ≠ .readOnly := by simp [hrw]
  have hb : writeWhileBusy r = false := by
    refine Bool.eq_false_iff.mpr fun h => ?_
    rw [eq_resPop_of_writeWhileBusy h] at hrw
    cases hrw
  rw [hostAccess_write ha hr]
  by_cases hbusy : s.busy = true
  · rw [if_pos (.inl ⟨hbusy, hb⟩), if_neg (by simp [hbusy])]
    rfl
  · have hidle : s.busy = false := Bool.eq_false_iff.mpr hbusy
    by_cases hC : C
    · obtain ⟨hf, hw⟩ := hok hC
      rw [if_neg (by simp [hidle, hro, hf]), if_pos ⟨hidle, hC⟩, hw]
      rfl
    · rw [if_neg (c := s.busy = false ∧ C) fun h => hC h.2]
      rcases herr hC with hf | ⟨e, he⟩
      · rw [if_pos (.inr (.inr hf))]
        rfl
      · rw [he]
        exact ite_self (respond errorResponse s)

/-- A single register without a check of its own reads as it holds while the core is idle (40_container_access.md
R147). -/
theorem hostAccess_read_plain {x : Word} (hl : windowTable.lookup a = some r) (hb : readWhileBusy r = false)
    (hx : readReg s r = .ok x) :
    hostAccess (.read a 4) s = if s.busy = false then answeredOnly ⟨.okay, x⟩ s else answeredOnly ⟨.error, 0⟩ s := by
  obtain ⟨ha, hr⟩ := regAt_of_lookup s.cfg hl
  simpa using hostAccess_read_if (C := True) ha hr hb (fun _ => hx) (fun h => absurd trivial h)

/-- A single register without a check of its own takes the values that fit it while the core is idle
(40_container_access.md R147). -/
theorem hostAccess_write_plain {v : Word} {s' : State} (hl : windowTable.lookup a = some r)
    (hrw : accessOf r = .readWrite) (hw : writeReg s v r = .ok s') (hC : fits s.cfg r v = true ↔ C) :
    hostAccess (.write a 4 v) s =
      if s.busy = false ∧ C then answeredOnly ⟨.okay, 0⟩ s' else answeredOnly ⟨.error, 0⟩ s := by
  obtain ⟨ha, hr⟩ := regAt_of_lookup s.cfg hl
  exact hostAccess_write_if ha hr hrw (fun h => ⟨hC.mpr h, hw⟩) fun h => .inl (Bool.eq_false_iff.mpr (mt hC.mp h))

end

/-! ### The registers' own checks -/

/-- An access with two checks A and B of its own is refused where one of them fails, whatever the two causes. -/
theorem exists_error_of_checks {α : Type} {A B P Q : Prop} [Decidable P] [Decidable Q] {e e' : BusError} {x : α}
    (h : ¬ (A ∧ B)) (hA : ¬ A → P) (hB : ¬ B → Q) :
    ∃ d, (if P then .error e else if Q then .error e' else .ok x : Except BusError α) = .error d := by
  by_cases hP : P
  · exact ⟨e, if_pos hP⟩
  · have hQ : Q := hB fun b => h ⟨not_imp_comm.mp hA hP, b⟩
    exact ⟨e', by rw [if_neg hP, if_pos hQ]⟩

theorem readReg_grow_ok {s : State} {i : Nat} (hi : i < s.gRows.toNat) (hv : s.gValid.getLsbD i = true) :
    readReg s (.grow i) = .ok (entryAt s.grow i) := by
  rw [readReg, if_neg (by omega), if_neg (by simp [hv])]

theorem readReg_grow_error {s : State} {i : Nat} (h : ¬ (i < s.gRows.toNat ∧ s.gValid.getLsbD i = true)) :
    ∃ e, readReg s (.grow i) = .error e :=
  exists_error_of_checks h Nat.le_of_not_lt eq_false_of_ne_true

theorem readReg_rx_ok {s : State} {j : Nat} (hj : j < s.gRows.toNat) (hv : s.rxValid.getLsbD j = true) :
    readReg s (.rx j) = .ok (entryAt s.rx j) := by
  rw [readReg, if_neg (by omega), if_neg (by simp [hv])]

theorem readReg_rx_error {s : State} {j : Nat} (h : ¬ (j < s.gRows.toNat ∧ s.rxValid.getLsbD j = true)) :
    ∃ e, readReg s (.rx j) = .error e :=
  exists_error_of_checks h Nat.le_of_not_lt eq_false_of_ne_true

theorem readReg_cwtData_ok {s : State} (ht : s.tableValid = true) (hi : s.cwtIndex.toNat < 2 ^ s.k.toNat) :
    readReg s .cwtData = .ok (s.cwt.readRow s.cwtIndex.toNat) := by
  rw [readReg, if_neg (by simp [ht]), if_neg (by omega)]

theorem readReg_cwtData_error {s : State} (h : ¬ (s.tableValid = true ∧ s.cwtIndex.toNat < 2 ^ s.k.toNat)) :
    ∃ e, readReg s .cwtData = .error e :=
  exists_error_of_checks h eq_false_of_ne_true Nat.le_of_not_lt

theorem writeReg_grow_ok {s : State} {i : Nat} {v : Word} (hi : i < s.gRows.toNat)
    (hc : v.toNat >>> s.gCols.toNat = 0) :
    writeReg s v (.grow i) =
      .ok { s with grow := s.grow.set i v, gValid := setBit s.gValid i, tableValid := false } := by
  rw [writeReg, if_neg (by omega), if_neg (by simp [hc])]

theorem writeReg_grow_error {s : State} {i : Nat} {v : Word}
    (h : ¬ (i < s.gRows.toNat ∧ v.toNat >>> s.gCols.toNat = 0)) : ∃ e, writeReg s v (.grow i) = .error e :=
  exists_error_of_checks h Nat.le_of_not_lt id

theorem writeReg_rx_ok {s : State} {j : Nat} (v : Word) (hj : j < s.gRows.toNat) :
    writeReg s v (.rx j) = .ok { s with rx := s.rx.set j v, rxValid := setBit s.rxValid j } := by
  rw [writeReg, if_neg (by omega)]

theorem writeReg_rx_error {s : State} {j : Nat} (v : Word) (hj : ¬ j < s.gRows.toNat) :
    ∃ e, writeReg s v (.rx j) = .error e :=
  ⟨.range, by rw [writeReg, if_pos (by omega)]⟩

/-! ### Single registers -/

/-- A flag as the word it reads as. -/
theorem ofNat_flag (b : Bool) : BitVec.ofNat 32 b.toNat = if b = true then 1 else 0 := by cases b <;> rfl

theorem hostAccess_write_cwtIndex (s : State) (v : Word) :
    hostAccess (.write 0x050 4 v) s =
      if s.busy = false ∧ v.toNat < 2 ^ s.cfg.kMax then answeredOnly ⟨.okay, 0⟩ { s with cwtIndex := v }
      else answeredOnly ⟨.error, 0⟩ s :=
  hostAccess_write_plain (r := .cwtIndex) rfl rfl rfl decide_eq_true_iff

/-- The table window answers only with an engine and inside its 2^K rows (40_container_access.md R146). -/
theorem hostAccess_read_cwtData (s : State) :
    hostAccess (.read 0x054 4) s =
      if s.busy = false ∧ s.tableValid = true ∧ s.cwtIndex.toNat < 2 ^ s.k.toNat then
        answeredOnly ⟨.okay, s.cwt.readRow s.cwtIndex.toNat⟩ s
      else answeredOnly ⟨.error, 0⟩ s := by
  obtain ⟨ha, hr⟩ := regAt_of_lookup s.cfg (a := 0x054) (r := .cwtData) rfl
  exact hostAccess_read_if ha hr rfl (fun ⟨ht, hi⟩ => readReg_cwtData_ok ht hi) readReg_cwtData_error

/-! ### The obligations -/

/-- Settles O42: each offset is that of a register without a check of its own. -/
theorem plainRegistersStoreAndRead : Obligations.PlainRegistersStoreAndRead := by
  intro s v
  have htrials : fits s.cfg .trials v = true ↔ v.toNat < 2 ^ 32 := iff_of_true rfl v.isLt
  simp only [List.forall_mem_cons, List.not_mem_nil, false_imp_iff, implies_true, and_true, BitVec.ofNat_toNat,
    ← ofNat_flag]
  refine ⟨⟨?_, ?_, ?_, ?_, ?_, ?trials, ?_⟩, ?reads⟩
  case trials => exact hostAccess_write_plain rfl rfl rfl htrials
  case reads =>
    and_intros
    all_goals exact hostAccess_read_plain rfl rfl rfl
  all_goals exact hostAccess_write_plain rfl rfl rfl decide_eq_true_iff

/-- Settles O43: the width is the window's check (R87), row and column the register's own. -/
theorem rowAccessIsChecked : Obligations.RowAccessIsChecked := by
  intro s i v _ hi
  have hr := regAt_rowOffset hi
  have ha : (0x080 + 4 * i) % 4 = 0 := by omega
  have hfits : fits s.cfg (.grow i) v = true ↔ v.toNat < 2 ^ s.cfg.kMax := decide_eq_true_iff
  refine ⟨hostAccess_write_if ha hr rfl
      (fun ⟨hf, hrow, hcol⟩ => ⟨hfits.mpr hf, writeReg_grow_ok hrow hcol⟩) fun h => ?_,
    hostAccess_read_if ha hr rfl (fun ⟨hrow, hv⟩ => readReg_grow_ok hrow hv) readReg_grow_error⟩
  by_cases hf : v.toNat < 2 ^ s.cfg.kMax
  · exact .inr (writeReg_grow_error fun hown => h ⟨hf, hown⟩)
  · exact .inl (Bool.eq_false_iff.mpr (mt hfits.mp hf))

/-- Settles O44: the sample range is the window's check (R87), the index the register's own. -/
theorem sampleAccessIsChecked : Obligations.SampleAccessIsChecked := by
  intro s j v hwf hj
  obtain ⟨-, hn, -⟩ := wellFormed_bounds hwf
  have hr := regAt_sampleOffset hn hj
  have ha : (0x100 + 4 * j) % 4 = 0 := by omega
  have hfits : fits s.cfg (.rx j) v = true ↔ sampleMin s.cfg ≤ v.toInt ∧ v.toInt ≤ sampleMax s.cfg := decide_eq_true_iff
  refine ⟨hostAccess_write_if ha hr rfl
      (fun ⟨hlo, hhi, hrow⟩ => ⟨hfits.mpr ⟨hlo, hhi⟩, writeReg_rx_ok v hrow⟩) fun h => ?_,
    hostAccess_read_if ha hr rfl (fun ⟨hrow, hv⟩ => readReg_rx_ok hrow hv) readReg_rx_error⟩
  by_cases hrow : j < s.gRows.toNat
  · exact .inl (Bool.eq_false_iff.mpr fun hf => h ⟨(hfits.mp hf).1, (hfits.mp hf).2, hrow⟩)
  · exact .inr (writeReg_rx_error v hrow)

/-- Settles O45: the stored bits and the counter are those that `emptyStores` leaves. -/
theorem shapeWriteEmptiesTheStores : Obligations.ShapeWriteEmptiesTheStores := by
  intro s v
  simp only [BitVec.ofNat_toNat]
  refine ⟨⟨(emptyStores s).grow, (emptyStores s).rx, (emptyStores s).freeCount, ?rows⟩,
    ⟨(emptyStores s).grow, (emptyStores s).rx, (emptyStores s).freeCount, ?cols⟩⟩
  case rows => exact hostAccess_write_plain (r := .gRows) rfl rfl rfl decide_eq_true_iff
  case cols => exact hostAccess_write_plain (r := .gCols) rfl rfl rfl decide_eq_true_iff

/-- Settles O47: on a valid engine the row of the table is the codeword by the engine invariant (10_state.md R63). -/
theorem tableWindowShowsTheCodewords : Obligations.TableWindowShowsTheCodewords := by
  intro s v
  refine ⟨hostAccess_write_cwtIndex s v, hostAccess_read_cwtData s, fun hinv hidle ht hi => ?_⟩
  rw [hostAccess_read_cwtData, if_pos ⟨hidle, ht, hi⟩, hinv.table ht _ hi]

/-- Settles O46: K is a single register whose only check is its width. -/
theorem kWriteEndsTheEngine : Obligations.KWriteEndsTheEngine := by
  intro s v
  rw [BitVec.ofNat_toNat]
  exact hostAccess_write_plain (r := .k) rfl rfl rfl decide_eq_true_iff

end Sys2Proof.Machine

/-! Proofs about the engine (41_engine_build_encode.md): NOP and the reserved words, the encoder, BUILD and ENCODE. -/

namespace Sys2Proof.Machine
open Sys2Proof

/-! ### What one step of each command answers -/

theorem exec_nop (s : State) : exec .nop s = .next (complete 0 s) := rfl

/-- A reserved word only raises ILLCMD (41_engine_build_encode.md R163). -/
theorem exec_reserved {i : Instr} (hi : isCommand i = false) (s : State) :
    exec i s = .next (raiseCmdError .illCmd s) := by
  cases i with
  | nop | build | encode | decode | trial | sweep => cases hi
  | _ => rfl

theorem exec_build_error {s : State} {e : CmdError} (h : buildCheck s = some e) :
    exec .build s = .next (raiseCmdError e s) := by
  rw [exec, execBuild, h]

theorem exec_build_ok {s : State} (h : buildCheck s = none) :
    exec .build s = .next (complete 0 { s with cwt := builtTable s, tableValid := true }) := by
  rw [exec, execBuild, h]

theorem exec_encode_error {s : State} {e : CmdError} (h : encodeCheck s = some e) :
    exec .encode s = .next (raiseCmdError e s) := by
  rw [exec, execEncode, h]

theorem exec_encode_ok {s : State} (h : encodeCheck s = none) :
    exec .encode s = .next (complete 0 { s with cw := enc s s.word.toNat }) := by
  rw [exec, execEncode, h]

/-! ### Which instructions and which shapes the checks refuse -/

theorem isCommand_cases {i : Instr} (hi : isCommand i = true) :
    i = .nop ∨ i = .build ∨ i = .encode ∨ i = .decode ∨ i = .trial ∨ i = .sweep := by
  cases i with
  | nop | build | encode | decode | trial | sweep => simp
  | _ => cases hi

theorem badShape_iff (s : State) :
    badShape s ↔ ¬ (1 ≤ s.gRows.toNat ∧ s.gRows.toNat ≤ s.cfg.nMax ∧ s.gCols.toNat ≤ s.cfg.kMax ∧ 1 ≤ s.k.toNat ∧
      s.k.toNat ≤ s.gCols.toNat) := by
  unfold badShape
  omega

/-! ### The codeword table that BUILD fills -/

theorem builtTable_wf {s : State} (h : s.cwt.wf = true) : (builtTable s).wf = true := Memory.fillRows_wf h _ _

theorem builtTable_readRow {s : State} (h : s.cwt.wf = true) (i : Nat) :
    (builtTable s).readRow i = if i < 2 ^ s.k.toNat then enc s i else s.cwt.readRow i :=
  Memory.readRow_fillRows h _ _ i

/-- A table filled by a BUILD whose checks pass establishes the engine invariant (10_state.md R63). -/
theorem engineInv_builtTable {s : State} (hwf : s.cwt.wf = true) (h : buildCheck s = none) :
    EngineInv { s with cwt := builtTable s, tableValid := true } := by
  obtain ⟨⟨hn, hnMax, hkMax, hk, hkCols⟩, hfilled⟩ := buildCheck_none.mp h
  exact {
    table_form := builtTable_wf hwf
    rows := fun _ => ⟨hn, hnMax⟩
    columns := fun _ => ⟨hk, hkCols, hkMax⟩
    filled := fun _ => rowsFilled_eq_true.mp hfilled
    table := fun _ i hi => (builtTable_readRow hwf i).trans (if_pos hi) }

/-! ### The encoder, bit by bit -/

/-- Only the selected term of an exclusive or counts. -/
theorem xorUpTo_single {n j : Nat} (hj : j < n) (f : Nat → Bool) : xorUpTo n (fun i => f i && decide (i = j)) = f j := by
  have hbelow : xorUpTo j (fun i => f i && decide (i = j)) = false := by
    rw [xorUpTo_congr (g := fun _ => false) fun i hi => by simp [Nat.ne_of_lt hi], xorUpTo_false]
  have hpast : ∀ i, j + 1 ≤ i → i < n → (f i && decide (i = j)) = false := fun i hi _ => by
    simp [Nat.ne_of_gt hi]
  rw [xorUpTo_extend hj hpast, xorUpTo, hbelow]
  simp

/-- The parity of a word with no bit set at k or above is the exclusive or of its low k bits. -/
theorem parity_eq_xorUpTo {k : Nat} (hk : k ≤ 32) {v : Word} (h : ∀ j, k ≤ j → v.getLsbD j = false) :
    parity v = xorUpTo k v.getLsbD :=
  xorUpTo_extend hk fun j hj _ => h j hj

theorem revLow_getLsbD {k j : Nat} (hk : k ≤ 32) (hj : j < k) (w : Nat) : (revLow k w).getLsbD j = bitOfWord j w k := by
  rw [revLow, wordOfBits_getLsbD _ _ _ (by omega)]
  simp [hj]

/-- The last form of 41_engine_build_encode.md R166: a codeword's bit is a parity of the row masked by the reversed
word. -/
theorem encBit_eq_parity (grow : List Word) {k : Nat} (hk : k ≤ 32) (w i : Nat) :
    encBit grow k w i = parity (lowBits k (entryAt grow i) &&& revLow k w) := by
  have hhigh : ∀ j, k ≤ j → (lowBits k (entryAt grow i) &&& revLow k w).getLsbD j = false := fun j hj => by
    rw [BitVec.getLsbD_and, lowBits_getLsbD]
    simp [Nat.not_lt.mpr hj]
  rw [parity_eq_xorUpTo hk hhigh]
  refine xorUpTo_congr fun j hj => ?_
  rw [BitVec.getLsbD_and, lowBits_getLsbD, revLow_getLsbD hk hj]
  simp [hj, entryOf]

/-- The first form of 41_engine_build_encode.md R166: a codeword's bit counts the selected columns modulo 2. -/
theorem enc_getLsbD_eq_codewordBit (s : State) (w : Nat) {i : Nat} (hi : i < 32) :
    (enc s w).getLsbD i = codewordBit s w i := by
  rw [enc_getLsbD s w i hi, encBit, xorUpTo_eq_odd]
  simp only [codewordBit, entryOf, bitOfWord, Bool.and_eq_true, Bool.decide_and]

theorem enc_xor (s : State) (a b : Nat) : enc s a ^^^ enc s b = enc s (a ^^^ b) := by
  refine BitVec.eq_of_getLsbD_eq fun i hi => ?_
  rw [BitVec.getLsbD_xor, enc_getLsbD s a i hi, enc_getLsbD s b i hi, enc_getLsbD s (a ^^^ b) i hi, encBit_xor]
  cases decide (i < s.gRows.toNat) <;> simp

/-- Doubling the word adds a last bit 0, so the extra column is not selected (41_engine_build_encode.md R170). -/
theorem encBit_double (grow : List Word) (k w i : Nat) : encBit grow (k + 1) (2 * w) i = encBit grow k w i := by
  have hlast : bitOfWord k (2 * w) (k + 1) = false := by simp [bitOfWord]
  have hbit : ∀ j, j < k → bitOfWord j (2 * w) (k + 1) = bitOfWord j w k := fun j hj => by
    have hpos : k + 1 - 1 - j = (k - 1 - j) + 1 := by omega
    rw [bitOfWord, bitOfWord, hpos, Nat.testBit_succ, Nat.mul_div_cancel_left w two_pos]
  rw [encBit, xorUpTo, hlast, Bool.and_false, Bool.xor_false]
  exact xorUpTo_congr fun j hj => by rw [hbit j hj]

/-- The word with its bit j alone selects column j (41_engine_build_encode.md R170). -/
theorem encBit_unit (grow : List Word) {k j : Nat} (hj : j < k) (i : Nat) :
    encBit grow k (2 ^ (k - 1 - j)) i = entryOf grow i j := by
  have hbit : ∀ m, m < k → bitOfWord m (2 ^ (k - 1 - j)) k = decide (m = j) := fun m hm => by
    rw [bitOfWord, Nat.testBit_two_pow, decide_eq_decide]
    omega
  rw [encBit, xorUpTo_congr fun m hm => by rw [hbit m hm], xorUpTo_single hj]

/-! ### The obligations -/

/-- Settles O10: NOP is the completion step with code 0. -/
theorem nopOnlyCompletes : Obligations.NopOnlyCompletes := exec_nop

/-- Settles O11: what is none of the six commands is a reserved word, and so is every word above 5. -/
theorem reservedWordsCompleteWithIllcmd : Obligations.ReservedWordsCompleteWithIllcmd := by
  refine ⟨fun s i hnop hbuild hencode hdecode htrial hsweep => exec_reserved ?_ s,
    fun s w hw => exec_reserved (isCommand_decode_of_ge hw) s⟩
  refine Bool.eq_false_iff.mpr fun hi => ?_
  have hcases := isCommand_cases hi
  tauto

/-- Settles O12: each clause is one answer of BUILD's check; the table is the one `builtTable` fills. -/
theorem buildConstructsTheEngine : Obligations.BuildConstructsTheEngine := by
  intro s hwf
  rw [badShape_iff, not_not]
  refine ⟨fun hbad => exec_build_error (buildCheck_config.mpr hbad),
    fun hshape hrow => exec_build_error (buildCheck_uninit.mpr ⟨hshape, rowsFilled_eq_false.mpr hrow⟩),
    fun hshape hrows => ?_⟩
  have hok : buildCheck s = none := buildCheck_none.mpr ⟨hshape, rowsFilled_eq_true.mpr hrows⟩
  refine ⟨builtTable s, exec_build_ok hok, fun i hi => ?_, fun i hi => ?_, engineInv_builtTable hwf hok⟩
  · rw [builtTable_readRow hwf, if_pos hi]
  · rw [builtTable_readRow hwf, if_neg (Nat.not_lt.mpr hi)]

/-- Settles O13: the exclusive or over the columns as a count modulo 2, and as the parity of a masked row. -/
theorem codewordIsTheMatrixProduct : Obligations.CodewordIsTheMatrixProduct := by
  refine ⟨fun s w i hi => ⟨enc_getLsbD_eq_codewordBit s w hi, ?_⟩, fun s t w hgrow hrows hk => ?_⟩
  · have hk : s.k.toNat ≤ 32 := s.k.isLt.le
    rw [enc_getLsbD s w i hi, encBit_eq_parity s.grow hk]
  · rw [enc, hgrow, hrows, hk, enc]

/-- Settles O14: each clause is one answer of ENCODE's check; the table agrees by the engine invariant. -/
theorem encodeWritesTheCodeword : Obligations.EncodeWritesTheCodeword := by
  refine fun s => ⟨fun ht => exec_encode_error (encodeCheck_noEngine ht),
    fun ht hw => exec_encode_error (encodeCheck_range ht hw), fun ht hw => ?_⟩
  exact ⟨enc s s.word.toNat, exec_encode_ok (encodeCheck_none.mpr ⟨ht, hw⟩),
    fun i hi => enc_getLsbD_eq_codewordBit s _ hi, fun hinv => (hinv.table ht _ hw).symm⟩

/-- Settles O15: 0 is the exclusive or of a word with itself, so its codeword is 0 by linearity. -/
theorem encodeIsLinear : Obligations.EncodeIsLinear := by
  refine fun s => ⟨?_, enc_xor s⟩
  calc enc s 0 = enc s 0 ^^^ enc s 0 := (enc_xor s 0 0).symm
    _ = 0 := BitVec.xor_self

/-- Settles O16: both halves hold for each bit of the codeword. -/
theorem codesAreNested : Obligations.CodesAreNested := by
  refine fun grow n k => ⟨fun w _ => ?_, fun j i hj hn hi => ?_⟩
  · exact congrArg (wordOfBits n) (funext (encBit_double grow k w))
  · rw [encWith_getLsbD grow n k _ i hi, encBit_unit grow hj i, decide_eq_true hn, Bool.true_and, entryOf]

end Sys2Proof.Machine

/-! Proofs about the decoder (42_engine_decode.md): the score of a candidate, the distance it orders by, and what DECODE
and the decode step of a trial leave in DEC_WORD. -/

namespace Sys2Proof.Machine
open Sys2Proof

/-! ### What DECODE and the decode step of a trial answer -/

theorem exec_decode_error {s : State} {e : CmdError} (h : decodeCheck s = some e) :
    exec .decode s = .next (raiseCmdError e s) := by
  rw [exec, execDecode, h]

theorem exec_decode_ok {s : State} (h : decodeCheck s = none) :
    exec .decode s = .next (complete 0 (decodeStep s)) := by
  rw [exec, execDecode, h]

theorem exec_trial_judge {s : State} (h : s.pos = .judge) : exec .trial s = .next (complete 0 (judgeTrial s)) := by
  rw [exec, execTrial, h]

theorem exec_sweep_judge {s : State} (h : s.pos = .judge) : exec .sweep s = .next (tallyTrial (judgeTrial s)) := by
  rw [exec, execSweep, h]

/-- ERR = 0 is no error's code (60_exceptions.md R240). -/
theorem cmdErrorCode_ne_zero (e : CmdError) : cmdErrorCode e ≠ 0 := by cases e <;> decide

/-- The decoded word fits DEC_WORD. -/
theorem toNat_ofNat_dec (s : State) : (BitVec.ofNat 32 (dec s)).toNat = dec s :=
  (BitVec.toNat_ofNat _ _).trans (Nat.mod_eq_of_lt (dec_lt_word s))

/-! ### The score of a candidate -/

theorem score_eq_correlation (s : State) (i : Nat) : score s i = correlation s i := by
  rw [score_eq_sum, correlation, Finset.sum_filter]
  rfl

/-- Candidates with the same codeword have the same score. -/
theorem score_congr {s : State} {a b : Nat} (h : s.cwt.readRow a = s.cwt.readRow b) : score s a = score s b := by
  rw [score, h, score]

/-- The codeword of the word 0 selects no sample (41_engine_build_encode.md R167). -/
theorem score_zero {s : State} (hinv : EngineInv s) (ht : s.tableValid = true) : score s 0 = 0 := by
  have hrow : s.cwt.readRow 0 = 0 := (hinv.table ht 0 (by positivity)).trans (encodeIsLinear s).1
  rw [score_eq_sum, hrow]
  simp

/-- A sample is at most 2^(SAMPLE_W-1) in size; an entry past the register file reads 0. -/
theorem abs_sampleAt_le {s : State} (hinv : StoreInv s) (j : Nat) : |sampleAt s j| ≤ 2 ^ (s.cfg.sampleW - 1) := by
  rw [sampleAt, entryAt, List.getD_eq_getElem?_getD]
  cases h : s.rx[j]? with
  | none => simp
  | some v =>
    obtain ⟨hmin, hmax⟩ := hinv.rx_bits v (List.mem_of_getElem? h)
    rw [sampleMin] at hmin
    rw [sampleMax] at hmax
    exact abs_le.mpr ⟨hmin, by simp only [Option.getD_some]; omega⟩

/-- A score is at most G_ROWS samples in size. -/
theorem abs_score_le {s : State} (hinv : StoreInv s) (i : Nat) :
    |score s i| ≤ s.gRows.toNat * 2 ^ (s.cfg.sampleW - 1) := by
  have hterm : ∀ j ∈ Finset.range s.gRows.toNat,
      |if (s.cwt.readRow i).getLsbD j then sampleAt s j else 0| ≤ 2 ^ (s.cfg.sampleW - 1) := fun j _ => by
    split
    · exact abs_sampleAt_le hinv j
    · simp
  calc |score s i| ≤ ∑ j ∈ Finset.range s.gRows.toNat, |if (s.cwt.readRow i).getLsbD j then sampleAt s j else 0| :=
        score_eq_sum s i ▸ Finset.abs_sum_le_sum_abs _ _
    _ ≤ s.gRows.toNat * 2 ^ (s.cfg.sampleW - 1) := by
        simpa using Finset.sum_le_card_nsmul _ _ _ hterm

/-- The least index is the decoder's answer when no candidate scores more. -/
theorem dec_eq_zero {s : State} (h : ∀ i, i < 2 ^ s.k.toNat → score s i ≤ score s 0) : dec s = 0 :=
  dec_unique s (by positivity) h fun i hi => absurd hi (Nat.not_lt_zero i)

/-! ### The antipodal metric and the squared distance -/

/-- 42_engine_decode.md R184, sample by sample: twice a selected sample less the sample keeps its sign, else turns it. -/
theorem antipodalMetric_eq (s : State) (i : Nat) :
    ∑ j ∈ Finset.range s.gRows.toNat,
        (2 * (if (s.cwt.readRow i).getLsbD j = true then 1 else 0) - 1) * (entryAt s.rx j).toInt =
      2 * score s i - ∑ j ∈ Finset.range s.gRows.toNat, (entryAt s.rx j).toInt := by
  rw [score_eq_sum, Finset.mul_sum, ← Finset.sum_sub_distrib]
  refine Finset.sum_congr rfl fun j _ => ?_
  rw [sampleAt]
  split <;> ring

/-- One coordinate of the distance: both amplitudes have the same square, so only the antipodal product depends on the
bit. -/
theorem sq_sub_amp (p : Params) (x : Int) (b : Bool) :
    (x - amp p b) ^ 2 =
      x ^ 2 + (2 ^ p.frac) ^ 2 - 2 * 2 ^ p.frac * ((2 * (if b = true then 1 else 0) - 1) * x) := by
  rw [amp, ampOne]
  split <;> ring

theorem squaredDistance_eq (s : State) (i : Nat) :
    squaredDistance s i =
      ∑ j ∈ Finset.range s.gRows.toNat, (entryAt s.rx j).toInt ^ 2 + s.gRows.toNat * (2 ^ s.cfg.frac) ^ 2 -
        2 * 2 ^ s.cfg.frac * (2 * score s i - ∑ j ∈ Finset.range s.gRows.toNat, (entryAt s.rx j).toInt) := by
  rw [← antipodalMetric_eq]
  simp only [squaredDistance, sq_sub_amp, Finset.sum_sub_distrib, Finset.sum_add_distrib, Finset.mul_sum,
    Finset.sum_const, Finset.card_range, nsmul_eq_mul]

/-- The terms that do not depend on the candidate cancel. -/
theorem squaredDistance_sub (s : State) (i i' : Nat) :
    squaredDistance s i' - squaredDistance s i = 4 * 2 ^ s.cfg.frac * (score s i - score s i') := by
  rw [squaredDistance_eq, squaredDistance_eq]
  ring

theorem squaredDistance_lt_iff (s : State) (i i' : Nat) :
    squaredDistance s i < squaredDistance s i' ↔ score s i > score s i' := by
  rw [← sub_pos, squaredDistance_sub, mul_pos_iff_of_pos_left (by positivity), sub_pos]

theorem squaredDistance_eq_iff (s : State) (i i' : Nat) :
    squaredDistance s i = squaredDistance s i' ↔ score s i = score s i' := by
  rw [eq_comm, ← sub_eq_zero, squaredDistance_sub, mul_eq_zero_iff_left (by positivity), sub_eq_zero]

/-! ### The noiseless image of a word -/

/-- Two codewords that differ do so at a position below G_ROWS. -/
theorem exists_bit_ne_of_enc_ne {s : State} {a b : Nat} (h : enc s a ≠ enc s b) :
    ∃ j, j < s.gRows.toNat ∧ (enc s a).getLsbD j ≠ (enc s b).getLsbD j := by
  by_contra! hsame
  refine h (BitVec.eq_of_getLsbD_eq fun j hj => ?_)
  by_cases hrow : j < s.gRows.toNat
  · exact hsame j hrow
  · rw [enc_getLsbD s a j hj, enc_getLsbD s b j hj, decide_eq_false hrow, Bool.false_and, Bool.false_and]

/-- Among the choices of which bits to select, selecting b itself gathers the most amplitude, and each other bit loses. -/
theorem selected_amp_lt (p : Params) {a b : Bool} (h : a ≠ b) :
    (if a = true then amp p b else 0) < if b = true then amp p b else 0 := by
  have hpos : 0 < ampOne p := by unfold ampOne; positivity
  cases b with
  | false =>
    rw [Bool.eq_true_of_not_eq_false h]
    simpa [amp] using hpos
  | true =>
    rw [Bool.eq_false_of_not_eq_true h]
    simpa [amp] using hpos

/-- With the noiseless image of w received, every other codeword scores less than w's. -/
theorem score_lt_of_enc_ne {s : State} {w i : Nat} (hinv : EngineInv s) (ht : s.tableValid = true)
    (hw : w < 2 ^ s.k.toNat) (hi : i < 2 ^ s.k.toNat)
    (hrx : ∀ j, j < s.gRows.toNat → (entryAt s.rx j).toInt = amp s.cfg ((enc s w).getLsbD j))
    (hne : enc s i ≠ enc s w) : score s i < score s w := by
  have hterm : ∀ j, j < s.gRows.toNat → (enc s i).getLsbD j ≠ (enc s w).getLsbD j →
      (if (enc s i).getLsbD j then sampleAt s j else 0) < if (enc s w).getLsbD j then sampleAt s j else 0 :=
    fun j hj hbit => by
      rw [sampleAt, hrx j hj]
      exact selected_amp_lt s.cfg hbit
  rw [score_eq_sum, score_eq_sum, hinv.table ht i hi, hinv.table ht w hw]
  obtain ⟨m, hm, hbit⟩ := exists_bit_ne_of_enc_ne hne
  refine Finset.sum_lt_sum (fun j hj => ?_) ⟨m, Finset.mem_range.mpr hm, hterm m hm hbit⟩
  by_cases hsame : (enc s i).getLsbD j = (enc s w).getLsbD j
  · rw [hsame]
  · exact (hterm j (Finset.mem_range.mp hj) hsame).le

/-! ### The obligations -/

/-- Settles O17: each clause is one answer of DECODE's check; the word left in DEC_WORD is `dec`'s. -/
theorem decodeReturnsTheLeastBestWord : Obligations.DecodeReturnsTheLeastBestWord := by
  refine fun s => ⟨fun ht => exec_decode_error (decodeCheck_noEngine ht),
    fun ht hempty => exec_decode_error (decodeCheck_uninit ht (samplesFilled_eq_false.mpr hempty)),
    fun ht hfilled => ?_⟩
  refine ⟨BitVec.ofNat 32 (dec s), Config.freeCycles s.freeCount, scanAll s, s.freeCount + 1,
    exec_decode_ok (decodeCheck_none.mpr ⟨ht, samplesFilled_eq_true.mpr hfilled⟩), ?_⟩
  simp only [toNat_ofNat_dec, ← score_eq_correlation]
  exact dec_spec s

/-- Settles O18: at most N_MAX ≤ 32 samples are added, and none for candidate 0. -/
theorem scoreIsTheBoundedCorrelation : Obligations.ScoreIsTheBoundedCorrelation := by
  refine fun s i => ⟨score_eq_correlation s i, fun hinv ht => ?_, score_zero⟩
  have hrows : (s.gRows.toNat : Int) ≤ 32 := by
    obtain ⟨-, hn, -⟩ := wellFormed_bounds hinv.params
    have := (hinv.engine.rows ht).2
    omega
  calc |score s i| ≤ s.gRows.toNat * 2 ^ (s.cfg.sampleW - 1) := abs_score_le hinv.stores i
    _ ≤ 32 * 2 ^ (s.cfg.sampleW - 1) := by gcongr

/-- Settles O19, sample by sample. -/
theorem scoreOrdersLikeTheAntipodalMetric : Obligations.ScoreOrdersLikeTheAntipodalMetric := antipodalMetric_eq

/-- Settles O20: the distance orders the candidates as the score does, reversed, so `dec`'s greatest score is the least
distance. -/
theorem decoderMinimisesEuclideanDistance : Obligations.DecoderMinimisesEuclideanDistance := by
  intro s
  obtain ⟨hdec, hmax, hleast⟩ := dec_spec s
  refine ⟨squaredDistance_eq s, fun i i' => ⟨squaredDistance_lt_iff s i i', squaredDistance_eq_iff s i i'⟩, hdec,
    fun i hi => not_lt.mp fun hlt => ?_, fun i hi => (squaredDistance_lt_iff s _ i).mpr (hleast i hi)⟩
  exact not_lt.mpr (hmax i hi) ((squaredDistance_lt_iff s i _).mp hlt)

/-- Settles O21: DECODE completes with code 0 only past its checks, and then, as after a trial, DEC_WORD is `dec`'s. -/
theorem decodedWordIsInRange : Obligations.DecodedWordIsInRange := by
  have hdec : ∀ s : State, (BitVec.ofNat 32 (dec s)).toNat < 2 ^ s.k.toNat := fun s =>
    (toNat_ofNat_dec s).trans_lt (dec_spec s).1
  refine fun s t => ⟨fun h herr => ?_, fun hpos h => ?_⟩
  · cases hcheck : decodeCheck s with
    | some e =>
      rw [exec_decode_error hcheck] at h
      cases h
      exact absurd herr (cmdErrorCode_ne_zero e)
    | none =>
      rw [exec_decode_ok hcheck] at h
      cases h
      exact hdec s
  · rw [exec_trial_judge hpos, exec_sweep_judge hpos] at h
    rcases h with h | h <;> cases h <;> exact hdec s

/-- Settles O22: only w's own codeword reaches w's score, so `dec` answers the least word with it. -/
theorem noiselessRoundTripIsExact : Obligations.NoiselessRoundTripIsExact := by
  intro s w hinv ht hw hrx
  obtain ⟨hdec, hmax, hleast⟩ := dec_spec s
  have henc : enc s (dec s) = enc s w := by
    by_contra hne
    exact not_lt.mpr (hmax w hw) (score_lt_of_enc_ne hinv ht hw hdec hrx hne)
  refine ⟨fun hinj => hinj _ _ hdec hw henc, henc, fun i hi hsame => (hleast i hi).ne (score_congr ?_)⟩
  rw [hinv.table ht i (hi.trans hdec), hinv.table ht _ hdec, hsame, henc]

/-- Settles O23: in both cases no candidate scores more than candidate 0. -/
theorem zeroAndNegativeVectorsDecodeToZero : Obligations.ZeroAndNegativeVectorsDecodeToZero := by
  refine fun s => ⟨fun hrx => ?_, fun hinv ht hneg => dec_eq_zero fun i hi => ?_⟩
  · have hzero : ∀ i, score s i = 0 := fun i => by
      rw [score_eq_sum]
      refine Finset.sum_eq_zero fun j hj => ?_
      rw [sampleAt, hrx j (Finset.mem_range.mp hj), ite_self]
    exact ⟨hzero, dec_eq_zero fun i _ => by rw [hzero, hzero]⟩
  · rcases Nat.eq_zero_or_pos i with rfl | hpos
    · exact le_rfl
    · exact (hneg i hpos hi).trans_eq (score_zero hinv ht).symm

end Sys2Proof.Machine

/-! Proofs about the simulation (43_simulation.md): the channel's arithmetic, the start of SWEEP, and the result queue
as the host sees it. -/

namespace Sys2Proof.Machine
open Sys2Proof

/-! ### The channel -/

/-- The rounding term of `noise` is half a multiple (43_simulation.md R200). -/
theorem two_pow_frac {p : Params} (h : 1 ≤ p.frac) : (2 : Int) ^ p.frac = 2 * 2 ^ (p.frac - 1) :=
  (mul_pow_sub_one (Nat.ne_of_gt h) 2).symm

/-- A product that is a multiple already is not rounded: half a multiple divides to 0. -/
theorem noise_of_mul_eq {p : Params} (h : 1 ≤ p.frac) {sigma : Nat} {z c : Int} (hc : sigma * z = 2 ^ p.frac * c) :
    noise p sigma z = c := by
  have hhalf : (0 : Int) < 2 ^ (p.frac - 1) := by positivity
  have hzero : (2 : Int) ^ (p.frac - 1) / 2 ^ p.frac = 0 :=
    Int.ediv_eq_zero_of_lt hhalf.le (by rw [two_pow_frac h]; omega)
  rw [noise, hc, add_comm, Int.add_mul_ediv_left _ _ (by positivity), hzero, zero_add]

/-- `noise` is the floor of its quotient. -/
theorem noise_bounds (p : Params) (sigma : Nat) (z : Int) :
    2 ^ p.frac * noise p sigma z ≤ sigma * z + 2 ^ (p.frac - 1) ∧
      sigma * z + 2 ^ (p.frac - 1) < 2 ^ p.frac * (noise p sigma z + 1) := by
  rw [mul_add_one]
  exact ⟨Int.mul_ediv_self_le (by positivity), Int.lt_mul_ediv_self_add (by positivity)⟩

/-- The two comparisons of `sat` clamp, as the sample range is not empty. -/
theorem sat_eq_max_min (p : Params) (v : Int) : sat p v = max (sampleMin p) (min (sampleMax p) v) := by
  obtain ⟨hlo, hhi⟩ := sat_range p v
  have hrange : sampleMin p ≤ sampleMax p := hlo.trans hhi
  unfold sat
  split_ifs <;> omega

/-! ### What SWEEP's start answers -/

theorem exec_sweep_error {s : State} {e : CmdError} (hpos : s.pos = .start) (h : sweepCheck s = some e) :
    exec .sweep s = .next (raiseCmdError e s) := by
  simp only [exec, execSweep, hpos, h]

theorem exec_sweep_start {s : State} (hpos : s.pos = .start) (h : sweepCheck s = none) :
    exec .sweep s = .next (beginLevel s.sigmaStart.toNat s) := by
  simp only [exec, execSweep, hpos, h]

theorem sweepCheck_of_not_badSweep {s : State} (ht : s.tableValid = true) (h : ¬ badSweep s) : sweepCheck s = none := by
  unfold badSweep at h
  exact sweepCheck_none.mpr ⟨ht, by omega⟩

/-! ### The head of the result queue -/

/-- A field of the head row, or 0 where the queue is empty (10_state.md R51). -/
theorem headRow_field {f : ResultRow → Word} (hf : f ⟨0, 0, 0, 0⟩ = 0) (s : State) :
    f (headRow s) = (s.resq.head?.map f).getD 0 := by
  rw [headRow]
  cases s.resq with
  | nil => exact hf
  | cons r rows => rfl

/-- A single register that BUSY never refuses hands back its value at any time (20_memory.md R88). -/
theorem hostAccess_read_single_anytime {s : State} {a : Nat} {r : Reg} {v : Word} (hl : windowTable.lookup a = some r)
    (hb : readWhileBusy r = true) (hv : readReg s r = .ok v) :
    hostAccess (.read a 4) s = answeredOnly ⟨.okay, v⟩ s := by
  obtain ⟨ha, hr⟩ := regAt_of_lookup s.cfg hl
  exact hostAccess_read_anytime ha hr hb hv

/-! ### The obligations -/

/-- Settles O24: a floor's two bounds, and three products that are multiples already. -/
theorem noiseRoundsToNearest : Obligations.NoiseRoundsToNearest := by
  intro p sigma z hfrac
  obtain ⟨hle, hlt⟩ := noise_bounds p sigma z
  refine ⟨hle, hlt, noise_of_mul_eq hfrac ?_, noise_of_mul_eq hfrac ?_, noise_of_mul_eq hfrac ?_⟩
  · simp
  · simp
  · push_cast
    rfl

/-- Settles O25: the clamp keeps the sample in the range that 32 bits hold. -/
theorem channelSampleIsClamped : Obligations.ChannelSampleIsClamped := by
  intro p b sigma z hwf
  obtain ⟨-, -, -, -, -, hw, -⟩ := wellFormed_bounds hwf
  obtain ⟨hlo, hhi⟩ := sat_range p (amp p b + noise p sigma z)
  exact ⟨sat_eq_max_min p _, sampleWord_toInt hw hlo hhi⟩

/-- Settles O32: each clause is one answer of SWEEP's check; SIGMA holds the level as SIGMA_START fits it. -/
theorem sweepChecksThenBegins : Obligations.SweepChecksThenBegins := by
  refine fun s hpos => ⟨fun ht => exec_sweep_error hpos (sweepCheck_noEngine ht),
    fun ht hbad => exec_sweep_error hpos (sweepCheck_config ht hbad), fun ht hgood => ?_⟩
  rw [exec_sweep_start hpos (sweepCheck_of_not_badSweep ht hgood), beginLevel, BitVec.ofNat_toNat, BitVec.setWidth_eq]

/-- Settles O48: RES_POP and the five RES registers are those that BUSY never refuses. -/
theorem rowsLeaveAtTheHead : Obligations.RowsLeaveAtTheHead := by
  intro s v
  rw [List.drop_one]
  refine ⟨hostAccess_write_resPop s v, ⟨queueLevel s, hostAccess_read_single_anytime rfl rfl rfl, queueLevel_toNat⟩, ?_⟩
  rw [← headRow_field (f := (·.sigma)) rfl, ← headRow_field (f := (·.errors)) rfl,
    ← headRow_field (f := (·.trials)) rfl, ← headRow_field (f := (·.cycles)) rfl]
  and_intros
  all_goals exact hostAccess_read_single_anytime rfl rfl rfl

end Sys2Proof.Machine

/-! Proofs about exceptions (60_exceptions.md): what a refused transaction and a read leave unchanged (R246). -/

namespace Sys2Proof.Machine
open Sys2Proof

/-! ### What the last response tells -/

/-- The response recorded last is the transaction's own, whatever else the transaction did to the state. -/
theorem response_eq_of_respond {s s' : State} {r r' : Response}
    (h : (respond r s').responses = s.responses ++ [r']) : r = r' :=
  List.singleton_injective (List.append_inj_right' h rfl)

/-- A transaction answered ERROR was refused: a read or a write that passes its checks is answered OKAY. -/
theorem refused_of_error_response {t : Txn} {s : State} {d : Word}
    (h : (hostAccess t s).responses = s.responses ++ [⟨.error, d⟩]) :
    d = 0 ∧ hostAccess t s = answeredOnly ⟨.error, 0⟩ s := by
  rcases hostAccess_cases t s with href | ⟨a, n, v, -, -, hread⟩ | ⟨a, n, v, s', -, -, hwrite⟩
  · rw [href] at h
    cases response_eq_of_respond h
    exact ⟨rfl, href⟩
  · rw [hread] at h
    cases response_eq_of_respond h
  · rw [hwrite] at h
    cases response_eq_of_respond h

/-- A read, refused or answered, changes nothing but the record of responses (20_memory.md R89). -/
theorem hostAccess_read_answeredOnly (s : State) (a n : Nat) : ∃ r, hostAccess (.read a n) s = answeredOnly r s := by
  rcases hostAccess_cases (.read a n) s with href | ⟨-, -, v, -, -, hread⟩ | ⟨_, _, _, _, hwrite, -⟩
  · exact ⟨errorResponse, href⟩
  · exact ⟨okayResponse v, hread⟩
  · cases hwrite

/-! ### The obligation -/

/-- Settles O39: the recorded response tells a refused transaction from one that was let through. -/
theorem refusalsAndReadsChangeNothing : Obligations.RefusalsAndReadsChangeNothing := fun s =>
  ⟨fun _ _ => refused_of_error_response, hostAccess_read_answeredOnly s⟩

end Sys2Proof.Machine

/-! Proofs about reset (70_reset_and_hazards.md): what can be seen and done right after it (R271, R272). -/

namespace Sys2Proof.Machine
open Sys2Proof

/-! ### The reset state -/

/-- With every flag and ERR at 0 and an empty queue STATUS reads 0: an idle core holds no row back (10_state.md R22, R26). -/
theorem statusWord_resetCore (s : State) : statusWord (resetCore s) = 0 := by
  have havail : rowAvail (resetCore s) = false := rfl
  have hhold : rowHold (resetCore s) = false := rfl
  rw [statusWord, havail, hhold]
  rfl

/-- An idle sequencer has nothing to do on its turn (10_state.md R60). -/
theorem sequencerTurn_idle {s : State} (h : s.phase = .idle) : sequencerTurn s = .next s := by
  rw [sequencerTurn, h]

/-- An answer to a draw that is not pending is ignored (70_reset_and_hazards.md R272). -/
theorem receiveAnswer_ignored {s : State} (h : s.draw = .none) (d : Word) : receiveAnswer d s = s := by
  rcases receiveAnswer_cases d s with ⟨q, hq, -⟩ | ⟨-, hignored⟩
  · rw [h] at hq
    cases hq
  · exact hignored

/-! ### What cannot be read -/

/-- At 0x080 and above the window holds rows and samples only (20_memory.md R82). -/
theorem row_or_sample_of_regAt_high {p : Params} {a : Nat} {r : Reg} (hr : regAt p a = some r) (ha : 0x080 ≤ a) :
    (∃ i, r = .grow i) ∨ ∃ j, r = .rx j := by
  rcases regAt_cases hr with ⟨i, -, hi, -⟩ | ⟨j, -, hj, -⟩ | hm
  · exact .inl ⟨i, hi⟩
  · exact .inr ⟨j, hj⟩
  · have hlow := (windowTable_offsets _ hm).2
    omega

/-- With G_ROWS = 0 there is no row and no sample: every read above the single registers is refused
(40_container_access.md R141, R145). -/
theorem hostAccess_read_high_refused {s : State} (h : s.gRows = 0) {a : Nat} (ha : 0x080 ≤ a) :
    hostAccess (.read a 4) s = answeredOnly ⟨.error, 0⟩ s := by
  have hnone (i : Nat) : ¬ i < s.gRows.toNat := by simp [h]
  rcases refused_or_mapped s a 4 with href | ⟨r, hal, -, hr⟩
  · exact (hostAccess_refused href 0).1
  · obtain ⟨i, rfl⟩ | ⟨j, rfl⟩ := row_or_sample_of_regAt_high hr ha
    · rw [hostAccess_read_if hal hr rfl (fun ⟨hrow, hv⟩ => readReg_grow_ok hrow hv) readReg_grow_error,
        if_neg fun hC => hnone i hC.2.1]
    · rw [hostAccess_read_if hal hr rfl (fun ⟨hrow, hv⟩ => readReg_rx_ok hrow hv) readReg_rx_error,
        if_neg fun hC => hnone j hC.2.1]

/-- Without an engine the table window is closed (40_container_access.md R146). -/
theorem hostAccess_read_cwtData_refused {s : State} (h : s.tableValid = false) :
    hostAccess (.read 0x054 4) s = answeredOnly ⟨.error, 0⟩ s := by
  rw [hostAccess_read_cwtData, if_neg (by simp [h])]

/-! ### The obligation -/

/-- Settles O51: the registers hold what `State.resetFor` gives them; G_ROWS = 0 and TABLE_VALID = 0 close the three
stores, and an idle core with no draw pending neither moves nor takes an answer. -/
theorem resetLeavesTheResetState : Obligations.ResetLeavesTheResetState := by
  rintro s t rfl
  refine ⟨?registers, fun a ha => ?reads, sequencerTurn_idle rfl, receiveAnswer_ignored rfl⟩
  case registers =>
    rw [statusWord_resetCore]
    and_intros
    all_goals rfl
  case reads =>
    obtain hhigh | rfl := ha
    · exact hostAccess_read_high_refused rfl hhigh
    · exact hostAccess_read_cwtData_refused rfl

end Sys2Proof.Machine

/-! Proofs about the command word (30_encoding.md), continued: the whole round trip and the rows of the opcode table
(R111). -/

namespace Sys2Proof.Machine
open Sys2Proof

/-! ### The reserved words -/

/-- A word whose highest set bit is p is that bit and its p low bits. -/
theorem topWord_setWidth_low {p : Nat} {w : Word} (hlo : 2 ^ p ≤ w.toNat) (hhi : w.toNat < 2 ^ (p + 1)) :
    topWord p (w.setWidth p) = w := by
  have hp : p < 32 := (Nat.pow_lt_pow_iff_right one_lt_two).mp (hlo.trans_lt w.isLt)
  have hlow : w.toNat % 2 ^ p = w.toNat - 2 ^ p := by
    rw [Nat.mod_eq_sub_mod hlo, Nat.mod_eq_of_lt (by omega)]
  apply BitVec.eq_of_toNat_eq
  rw [topWord_toNat p _ hp, BitVec.toNat_setWidth, hlow, Nat.add_sub_cancel' hlo]

/-- One branch of the decoder: the row i of highest set bit p, and the rows above it. -/
theorem encode_topRow_or {p n : Nat} {w : Word} {i rest : Instr} (hlo : 2 ^ p ≤ w.toNat) (hn : n = 2 ^ (p + 1))
    (hi : encode i = topWord p (w.setWidth p)) (hrest : 2 ^ (p + 1) ≤ w.toNat → encode rest = w) :
    encode (if w.toNat < n then i else rest) = w := by
  subst hn
  split
  · rw [hi, topWord_setWidth_low hlo ‹_›]
  · exact hrest (by omega)

/-- The encoder inverts the decoder, which finds a reserved word's highest set bit from below. -/
theorem encode_decode (w : Word) : encode (decode w) = w := by
  by_cases hcmd : w.toNat < 6
  · exact encode_decode_of_lt hcmd
  by_cases hopc : w.toNat < 8
  · obtain rfl | rfl : w = 6#32 ∨ w = 7#32 := by bv_omega
    all_goals rfl
  have hlo : 2 ^ 3 ≤ w.toNat := by omega
  rw [decode, if_neg (by omega), if_neg (by omega), if_neg (by omega), if_neg (by omega), if_neg (by omega),
    if_neg (by omega), if_neg hopc]
  iterate 28 refine encode_topRow_or ‹_› rfl rfl fun hlo => ?_
  exact topWord_setWidth_low ‹_› w.isLt

/-- The decoder inverts the encoder: the value of a reserved word, 2^p plus its low bits, settles every test of the
decoder. -/
theorem decode_encode (i : Instr) : decode (encode i) = i := by
  cases i with
  | nop | build | encode | decode | trial | sweep => exact decode_encode_of_isCommand rfl
  | illOpc6_7 low => revert low; decide
  | _ low =>
    have hlow := low.isLt
    have hword := topWord_toNat _ low (by decide)
    have hwidth := topWord_setWidth _ low (by decide)
    rw [encode]
    simp (disch := omega) only [decode, if_neg, if_pos, hwidth]

/-! ### The rows of the opcode table -/

/-- One instruction of each row: the reserved rows with their low bits 0. -/
def rowHeads : List Instr :=
  [.nop, .build, .encode, .decode, .trial, .sweep, .illOpc6_7 0, .illOpc8_15 0, .illTop4 0, .illTop5 0, .illTop6 0,
    .illTop7 0, .illTop8 0, .illTop9 0, .illTop10 0, .illTop11 0, .illTop12 0, .illTop13 0, .illTop14 0, .illTop15 0,
    .illTop16 0, .illTop17 0, .illTop18 0, .illTop19 0, .illTop20 0, .illTop21 0, .illTop22 0, .illTop23 0,
    .illTop24 0, .illTop25 0, .illTop26 0, .illTop27 0, .illTop28 0, .illTop29 0, .illTop30 0, .illTop31 0]

/-- A row does not depend on the low bits, so `rowHeads` has them all. -/
theorem opcodeRow_mem_rowHeads (i : Instr) : opcodeRow i ∈ rowHeads.map opcodeRow := by
  cases i <;> simp only [opcodeRow] <;> decide

/-- Two rows whose patterns agree wherever both masks look are the same row. -/
theorem row_eq_of_patterns_agree :
    ∀ r ∈ rowHeads.map opcodeRow, ∀ r' ∈ rowHeads.map opcodeRow,
      r.pattern &&& r'.mask = r'.pattern &&& r.mask → r = r' := by decide

/-- No word lies in two rows. -/
theorem opcodeRow_eq_of_holds {i j : Instr} {w : Word} (hi : (opcodeRow i).holds w = true)
    (hj : (opcodeRow j).holds w = true) : opcodeRow i = opcodeRow j := by
  refine row_eq_of_patterns_agree _ (opcodeRow_mem_rowHeads i) _ (opcodeRow_mem_rowHeads j) ?_
  rw [← of_decide_eq_true hi, ← of_decide_eq_true hj, BitVec.and_assoc, BitVec.and_assoc,
    BitVec.and_comm (opcodeRow i).mask]

/-- An instruction's word lies in its row (`Laws.TableRow`, for every instruction). -/
theorem opcodeRow_holds_encode (i : Instr) : (opcodeRow i).holds (encode i) = true := by
  cases i with
  | nop | build | encode | decode | trial | sweep => decide
  | illOpc6_7 low => exact Laws.TableRow.illOpc6_7 low
  | _ low => exact topWord_holds _ low (by decide) rfl rfl

/-! ### The obligations -/

/-- Settles O3: both round trips. -/
theorem encodeAndDecodeAgree : Obligations.EncodeAndDecodeAgree := ⟨decode_encode, encode_decode⟩

/-- Settles O4: a word lies in the row of the instruction it decodes to, whose word it is, and no two rows overlap. -/
theorem everyWordLiesInOneRow : Obligations.EveryWordLiesInOneRow := by
  intro w i
  have hown : (opcodeRow (decode w)).holds w = true := by
    simpa only [encode_decode] using opcodeRow_holds_encode (decode w)
  exact ⟨fun hi => opcodeRow_eq_of_holds hi hown, fun hrow => hrow ▸ hown⟩

/-- Settles O1: each of the words is the encoder's for the row it is to decode to. -/
theorem sampleWordsDecodeAsTabled : Obligations.SampleWordsDecodeAsTabled :=
  ⟨decode_encode .nop, decode_encode .build, decode_encode .encode, decode_encode .decode, decode_encode .trial,
    decode_encode .sweep, decode_encode (.illOpc6_7 1), decode_encode (.illOpc8_15 5), decode_encode (.illTop4 1),
    decode_encode (.illTop31 1)⟩

end Sys2Proof.Machine

/-! Proofs about the state as a whole (10_state.md): which step changes the parameters, the engine and the result queue,
and the engine invariant (R63). -/

namespace Sys2Proof.Machine
open Sys2Proof

/-! ### What keeps the engine -/

/-- t has the engine of s: its parameters, shape, K, matrix, table and TABLE_VALID. -/
structure SameEngine (s t : State) : Prop where
  cfg        : t.cfg = s.cfg
  gRows      : t.gRows = s.gRows
  gCols      : t.gCols = s.gCols
  k          : t.k = s.k
  grow       : t.grow = s.grow
  gValid     : t.gValid = s.gValid
  cwt        : t.cwt = s.cwt
  tableValid : t.tableValid = s.tableValid

theorem SameEngine.enc_eq {s t : State} (h : SameEngine s t) (w : Nat) : enc t w = enc s w :=
  codewordIsTheMatrixProduct.2 s t w h.grow h.gRows h.k

theorem SameEngine.engineInv {s t : State} (h : SameEngine s t) (hs : EngineInv s) : EngineInv t where
  table_form := by rw [h.cwt]; exact hs.table_form
  rows := by rw [h.tableValid, h.gRows, h.cfg]; exact hs.rows
  columns := by rw [h.tableValid, h.k, h.gCols, h.cfg]; exact hs.columns
  filled := by rw [h.tableValid, h.gRows, h.gValid]; exact hs.filled
  table := by
    simp only [h.enc_eq]
    rw [h.tableValid, h.k, h.cwt]
    exact hs.table

/-- Without an engine only the table's form is claimed. -/
theorem engineInv_of_invalid {s : State} (hwf : s.cwt.wf = true) (h : s.tableValid = false) : EngineInv s where
  table_form := hwf
  rows ht := by simp [h] at ht
  columns ht := by simp [h] at ht
  filled ht := by simp [h] at ht
  table ht := by simp [h] at ht

/-- No command but BUILD touches the engine. -/
theorem ExecEffect.sameEngine {s t : State} {i : Instr} (hi : i ≠ .build) (h : ExecEffect s i t) : SameEngine s t := by
  cases h with
  | buildError | build => exact absurd rfl hi
  | _ => exact ⟨rfl, rfl, rfl, rfl, rfl, rfl, rfl, rfl⟩

/-- BUILD keeps the engine when it is refused, and otherwise makes one. -/
theorem ExecEffect.build_cases {s t : State} (h : ExecEffect s .build t) :
    SameEngine s t ∨
      (buildCheck s = none ∧ t = complete 0 { s with cwt := builtTable s, tableValid := true }) := by
  cases h with
  | build hcheck => exact .inr ⟨hcheck, rfl⟩
  | illegal hi => cases hi
  | _ => exact .inl ⟨rfl, rfl, rfl, rfl, rfl, rfl, rfl, rfl⟩

/-- A write keeps the engine, or ends it and leaves the table. -/
theorem WriteEffect.engine_cases {s t : State} {v : Word} {r : Reg} (h : WriteEffect s v r t) :
    SameEngine s t ∨ (t.tableValid = false ∧ t.cwt = s.cwt) := by
  cases h with
  | cmd =>
    by_cases hbuild : decode v = .build
    · exact .inr ⟨if_pos hbuild, rfl⟩
    · exact .inl ⟨rfl, rfl, rfl, rfl, rfl, rfl, rfl, if_neg hbuild⟩
  | gRows | gCols | k | grow => exact .inr ⟨rfl, rfl⟩
  | _ => exact .inl ⟨rfl, rfl, rfl, rfl, rfl, rfl, rfl, rfl⟩

/-- All a move can do to the engine: nothing, end it, make one by BUILD's completion, or lose it by a reset. -/
theorem MoveEffect.engine_cases {s t : State} {m : Move} (h : MoveEffect s m t) :
    SameEngine s t ∨ (t.tableValid = false ∧ t.cwt = s.cwt) ∨
      (m = .sequencer ∧ s.phase = .run .build ∧ buildCheck s = none ∧
        t = complete 0 { s with cwt := builtTable s, tableValid := true }) ∨
      (m = .reset ∧ t = resetCore s) := by
  cases h with
  | run i hphase he =>
    by_cases hi : i = .build
    · subst hi
      rcases he.build_cases with hsame | ⟨hcheck, ht⟩
      · exact .inl hsame
      · exact .inr (.inr (.inl ⟨rfl, hphase, hcheck, ht⟩))
    · exact .inl (he.sameEngine hi)
  | writeAccess a v r _ _ _ _ hw =>
    rcases hw.engine_cases with ⟨hcfg, hrows, hcols, hk, hgrow, hvalid, hcwt, ht⟩ | hended
    · exact .inl ⟨hcfg, hrows, hcols, hk, hgrow, hvalid, hcwt, ht⟩
    · exact .inr (.inl hended)
  | reset => exact .inr (.inr (.inr ⟨rfl, rfl⟩))
  | _ => exact .inl ⟨rfl, rfl, rfl, rfl, rfl, rfl, rfl, rfl⟩

/-- Every move keeps the engine invariant (10_state.md R63). -/
theorem MoveEffect.engineInv {s t : State} {m : Move} (h : MoveEffect s m t) (hs : EngineInv s) : EngineInv t := by
  rcases h.engine_cases with hsame | ⟨hended, hcwt⟩ | ⟨-, -, hcheck, rfl⟩ | ⟨-, rfl⟩
  · exact hsame.engineInv hs
  · exact engineInv_of_invalid (hcwt ▸ hs.table_form) hended
  · have hdone : SameEngine { s with cwt := builtTable s, tableValid := true }
        (complete 0 { s with cwt := builtTable s, tableValid := true }) := ⟨rfl, rfl, rfl, rfl, rfl, rfl, rfl, rfl⟩
    exact hdone.engineInv (engineInv_builtTable hs.table_form hcheck)
  · exact engineInv_of_invalid rfl rfl

/-! ### What changes the parameters and the queue -/

theorem ExecEffect.cfg_eq {s t : State} {i : Instr} (h : ExecEffect s i t) : t.cfg = s.cfg := by
  cases h <;> rfl

theorem WriteEffect.cfg_eq {s t : State} {v : Word} {r : Reg} (h : WriteEffect s v r t) : t.cfg = s.cfg := by
  cases h <;> rfl

theorem MoveEffect.cfg_eq {s t : State} {m : Move} (h : MoveEffect s m t) : t.cfg = s.cfg := by
  cases h with
  | run i _ he => exact he.cfg_eq
  | writeAccess a v r _ _ _ _ hw => exact hw.cfg_eq
  | _ => rfl

theorem ExecEffect.resq_cases {s t : State} {i : Instr} (h : ExecEffect s i t) :
    t.resq = s.resq ∨
      (i = .sweep ∧ s.pos = .push ∧ s.resq.length < s.cfg.resqDepth ∧ t.resq = s.resq ++ [levelRow s]) := by
  cases h with
  | sweepPush hpos hroom => exact .inr ⟨rfl, hpos, hroom, rfl⟩
  | _ => exact .inl rfl

theorem WriteEffect.resq_cases {s t : State} {v : Word} {r : Reg} (h : WriteEffect s v r t) :
    t.resq = s.resq ∨ (r = .resPop ∧ v.getLsbD 0 = true ∧ t.resq = s.resq.tail) := by
  cases h with
  | pop hbit => exact .inr ⟨rfl, hbit, rfl⟩
  | _ => exact .inl rfl

/-- All a move can do to the queue: nothing, a sweep's push at the tail, a host's pop at the head, or a reset. -/
theorem MoveEffect.resq_cases {s t : State} {m : Move} (h : MoveEffect s m t) :
    t.resq = s.resq ∨
      (m = .sequencer ∧ s.phase = .run .sweep ∧ s.pos = .push ∧ s.resq.length < s.cfg.resqDepth ∧
        t.resq = s.resq ++ [levelRow s]) ∨
      (∃ v, m = .host (.write 0x06C 4 v) ∧ v.getLsbD 0 = true ∧ t.resq = s.resq.tail) ∨
      (m = .reset ∧ t.resq = []) := by
  cases h with
  | run i hphase he =>
    rcases he.resq_cases with hsame | ⟨rfl, hpush⟩
    · exact .inl hsame
    · exact .inr (.inl ⟨rfl, hphase, hpush⟩)
  | writeAccess a v r _ hr _ _ hw =>
    rcases hw.resq_cases with hsame | ⟨rfl, hpop⟩
    · exact .inl hsame
    · obtain rfl := regAt_resPop hr
      exact .inr (.inr (.inl ⟨v, rfl, hpop⟩))
  | reset => exact .inr (.inr (.inr ⟨rfl, rfl⟩))
  | _ => exact .inl rfl

/-! ### The obligations -/

/-- Settles O57, by the four things a move can do to the engine. -/
theorem engineInvariantIsKept : Obligations.EngineInvariantIsKept := by
  intro s t hs hstep
  have htail : SameEngine s { s with inputs := s.inputs.tail } := ⟨rfl, rfl, rfl, rfl, rfl, rfl, rfl, rfl⟩
  exact (step_next hstep).engineInv (htail.engineInv hs)

/-- Settles O52. -/
theorem parametersNeverChange : Obligations.ParametersNeverChange := fun _ _ hstep => (step_next hstep).cfg_eq

/-- Settles O53: of the four things a move can do to the engine only BUILD's completion raises TABLE_VALID. -/
theorem onlyBuildMakesAnEngine : Obligations.OnlyBuildMakesAnEngine := by
  intro s t hstep hs ht
  rcases (step_next hstep).engine_cases with hsame | ⟨hended, -⟩ | ⟨-, hphase, -, rfl⟩ | ⟨-, rfl⟩
  · rw [hsame.tableValid] at ht
    exact absurd (hs.symm.trans ht) (by decide)
  · exact absurd (hended.symm.trans ht) (by decide)
  · exact ⟨hphase, rfl, rfl, rfl⟩
  · cases ht

/-- Settles O54: of the four things a move can do to the engine BUILD's completion and a reset change the table. -/
theorem onlyBuildWritesTheTable : Obligations.OnlyBuildWritesTheTable := by
  intro s t hstep hne
  rcases (step_next hstep).engine_cases with hsame | ⟨-, hcwt⟩ | ⟨hmove, hphase, -, rfl⟩ | ⟨hmove, -⟩
  · exact absurd hsame.cwt hne
  · exact absurd hcwt hne
  · exact .inl ⟨hphase, nextMove_sequencer hmove, rfl, rfl, rfl, rfl⟩
  · exact .inr (nextMove_listed hmove (by simp))

/-- Settles O55. -/
theorem commandsKeepTheEngine : Obligations.CommandsKeepTheEngine := by
  intro i s t hi hexec
  obtain ⟨-, hrows, hcols, hk, hgrow, hvalid, hcwt, ht⟩ := (exec_next hexec).sameEngine hi
  exact ⟨hrows, hcols, hk, hgrow, hvalid, hcwt, ht⟩

/-- Settles O56: each thing a move can do to the queue, with the move that does it. -/
theorem queueIsFirstInFirstOut : Obligations.QueueIsFirstInFirstOut := by
  intro s t hstep
  rcases (step_next hstep).resq_cases with hsame | ⟨hmove, hphase, hpos, hroom, hpush⟩ | ⟨v, hmove, hbit, hpop⟩ |
    ⟨hmove, hempty⟩
  · exact .inl hsame
  · exact .inr (.inl ⟨hphase, hpos, nextMove_sequencer hmove, hroom, hpush⟩)
  · obtain ⟨rest, hinputs⟩ := nextMove_listed hmove (by simp)
    exact .inr (.inr (.inl ⟨v, rest, hinputs, hbit, hpop⟩))
  · exact .inr (.inr (.inr ⟨hempty, nextMove_listed hmove (by simp)⟩))

end Sys2Proof.Machine

/-! Proofs about the whole invariant (10_state.md R23 to R25, R44, R45, R50, R60, R62; 43_simulation.md R209): every move
keeps it, and reset establishes it. -/

namespace Sys2Proof.Machine
open Sys2Proof

/-! ### STATUS and PHASE -/

theorem controlInv_complete {c : BitVec 4} (hc : c ∈ [0#4, 1#4, 2#4, 4#4, 5#4, 6#4]) (s : State) :
    ControlInv (complete c s) where
  busy_iff := by simp
  not_both := by simp
  err_codes := hc
  err_done := by simp

theorem cmdErrorCode_mem (e : CmdError) : cmdErrorCode e ∈ [0#4, 1#4, 2#4, 4#4, 5#4, 6#4] := by cases e <;> decide

theorem controlInv_startCommand (w : Word) (s : State) : ControlInv (startCommand w s) where
  busy_iff := by simp
  not_both := by simp
  err_codes := by simp
  err_done := by simp

/-- A step of a command completes it or leaves STATUS and PHASE alone. -/
theorem ExecEffect.controlInv {s t : State} {i : Instr} (h : ExecEffect s i t) (hs : ControlInv s) : ControlInv t := by
  cases h with
  | illegal | buildError | encodeError | decodeError | trialError | sweepError =>
    exact controlInv_complete (cmdErrorCode_mem _) _
  | nop | build | encode | decode | trialEnd | sweepEnd => exact controlInv_complete (by decide) _
  | _ => exact { hs with }

/-- A write starts a command or leaves STATUS and PHASE alone. -/
theorem WriteEffect.controlInv {s t : State} {v : Word} {r : Reg} (h : WriteEffect s v r t) (hs : ControlInv s) :
    ControlInv t := by
  cases h with
  | cmd => exact controlInv_startCommand v s
  | _ => exact { hs with }

/-! ### The sequencer's position and the draw -/

/-- Does the sequencer wait for the random source at the position? -/
def awaitsDraw : Pos → Bool
  | .takeWord | .takeNoise _ => true
  | _ => false

/-- No draw is pending where the sequencer does not wait for one. -/
theorem RunInv.draw_none {s : State} (h : RunInv s) {p : Pos} (hp : s.pos = p) (hw : awaitsDraw p = false) :
    s.draw = .none := by
  by_contra hne
  obtain ⟨-, hpos | ⟨j, hpos⟩⟩ := h.draw_pending.mp hne <;> rw [hp] at hpos <;> subst hpos <;> cases hw

/-- While no trial runs no draw is pending. -/
theorem RunInv.draw_none_of_not_running {s : State} (h : RunInv s) (hr : ¬ running s) : s.draw = .none := by
  by_contra hne
  exact hr (h.draw_pending.mp hne).1

theorem RunInv.draw_none_of_idle {s : State} (h : RunInv s) (hp : s.phase = .idle) : s.draw = .none :=
  h.draw_none_of_not_running (by simp [running, hp])

/-- An idle core only has to have no draw pending. -/
theorem runInv_of_idle {s : State} (hp : s.phase = .idle) (hd : s.draw = .none) : RunInv s := by
  have hr : ¬ running s := by simp [running, hp]
  constructor <;> simp [hp, hd, hr]

/-- A command at its start only has to have no draw pending, and BUILD no engine. -/
theorem runInv_startCommand {s : State} (hd : s.draw = .none) (w : Word) : RunInv (startCommand w s) := by
  constructor <;> simp +contextual [hd]

theorem running_of_runsTrials {s : State} {i : Instr} (hi : runsTrials i) (hp : s.phase = .run i) : running s := by
  rcases hi with rfl | rfl
  · exact .inl hp
  · exact .inr hp

/-- What a running trial of command i has at the sequencer's position: a coordinate below G_ROWS, the position a position
of i, and the pending draw that the position waits for. -/
def standing (i : Instr) (s : State) : Prop :=
  match s.pos with
  | .takeWord => s.draw ≠ .none ∧ ∀ q, s.draw = .requested q → q = .uniform s.k.toNat
  | .drawNoise j => j < s.gRows.toNat ∧ s.draw = .none
  | .takeNoise j => j < s.gRows.toNat ∧ s.draw ≠ .none ∧ ∀ q, s.draw = .requested q → q = .normal
  | .push | .nextLevel => i = .sweep ∧ s.draw = .none
  | _ => s.draw = .none

theorem runInv_of_standing {s : State} {i : Instr} (hi : runsTrials i) (hp : s.phase = .run i)
    (ht : s.tableValid = true) (h : standing i s) : RunInv s where
  build_ends_engine hb := by
    rw [hp] at hb
    cases hb
    rcases hi with hi | hi <;> cases hi
  at_start i' hp' htrial hsweep := by
    rw [hp] at hp'
    cases hp'
    rcases hi with rfl | rfl
    · exact absurd rfl htrial
    · exact absurd rfl hsweep
  has_engine _ _ := ht
  trial_pos htrial := by
    rw [hp] at htrial
    cases htrial
    constructor <;> intro hpos <;> simp [standing, hpos] at h
  coordinate _ j hpos := by
    rcases hpos with hpos | hpos <;> simp only [standing, hpos] at h <;> exact h.1
  draw_pending := by
    have hr := running_of_runsTrials hi hp
    unfold standing at h
    cases hpos : s.pos <;> simp_all
  word_request _ hpos := by
    simp only [standing, hpos] at h
    exact h.2
  noise_request _ j hpos := by
    simp only [standing, hpos] at h
    exact h.2.2

theorem standing_nextCoordinate {s : State} {j : Nat} (hpos : s.pos = nextCoordinate s j) (hd : s.draw = .none)
    (i : Instr) : standing i s := by
  unfold nextCoordinate at hpos
  split at hpos
  · simp only [standing, hpos]
    exact ⟨‹_›, hd⟩
  · simp only [standing, hpos]
    exact hd

/-- Past its start check a trial has an engine. -/
theorem RunInv.engine_of_pos {s : State} (h : RunInv s) {i : Instr} (hi : runsTrials i) (hp : s.phase = .run i) {p : Pos}
    (hpos : s.pos = p) (hne : p ≠ .start) : s.tableValid = true :=
  h.has_engine (running_of_runsTrials hi hp) (hpos ▸ hne)

/-- A step of a command completes it with no draw pending, or leaves the sequencer standing at its next position. -/
theorem ExecEffect.runInv {s t : State} {i : Instr} (h : ExecEffect s i t) (hs : RunInv s) (hp : s.phase = .run i) :
    RunInv t := by
  cases h with
  | nop | buildError | build | encodeError | encode | decodeError | decode =>
    exact runInv_of_idle rfl (hs.draw_none_of_not_running (by simp [running, hp]))
  | illegal hi =>
    refine runInv_of_idle rfl (hs.draw_none_of_not_running ?_)
    rintro (hr | hr) <;> rw [hp] at hr <;> cases hr <;> cases hi
  | trialError hpos | trialEnd hpos | sweepError _ hpos | sweepEnd hpos =>
    exact runInv_of_idle rfl (hs.draw_none hpos rfl)
  | trialStart hpos ht => exact runInv_of_standing (.inl rfl) hp ht (hs.draw_none hpos rfl)
  | sweepStart hpos hcheck =>
    exact runInv_of_standing (.inr rfl) hp (sweepCheck_none.mp hcheck).1 (hs.draw_none hpos rfl)
  | sweepTally hpos =>
    refine runInv_of_standing (.inr rfl) hp (hs.engine_of_pos (.inr rfl) hp hpos (by simp)) ?_
    have hd := hs.draw_none hpos rfl
    by_cases hmore : s.trialCount.toNat + 1 < s.trials.toNat <;> simp [standing, hmore, hd]
  | sweepPush hpos =>
    exact runInv_of_standing (.inr rfl) hp (hs.engine_of_pos (.inr rfl) hp hpos (by simp)) ⟨rfl, hs.draw_none hpos rfl⟩
  | sweepNext hpos =>
    exact runInv_of_standing (.inr rfl) hp (hs.engine_of_pos (.inr rfl) hp hpos (by simp)) (hs.draw_none hpos rfl)
  | askWord hi hpos =>
    exact runInv_of_standing hi hp (hs.engine_of_pos hi hp hpos (by simp)) ⟨by simp, by simp⟩
  | gotWord d hi hpos =>
    exact runInv_of_standing hi hp (hs.engine_of_pos hi hp hpos (by simp)) (standing_nextCoordinate rfl rfl i)
  | askNoise j hi hpos =>
    exact runInv_of_standing hi hp (hs.engine_of_pos hi hp hpos (by simp))
      ⟨hs.coordinate (running_of_runsTrials hi hp) j (.inl hpos), by simp, by simp⟩
  | gotNoise j d hi hpos =>
    exact runInv_of_standing hi hp (hs.engine_of_pos hi hp hpos (by simp)) (standing_nextCoordinate rfl rfl i)
  | hold => exact hs

/-- Only RES_POP is written while a command runs. -/
theorem idle_of_write {s : State} (h : ControlInv s) {r : Reg} (hb : s.busy = true → r = .resPop) (hr : r ≠ .resPop) :
    s.phase = .idle := by
  by_contra hne
  exact hr (hb (h.busy_iff.mpr hne))

theorem WriteEffect.runInv {s t : State} {v : Word} {r : Reg} (h : WriteEffect s v r t) (hc : ControlInv s)
    (hs : RunInv s) (hb : s.busy = true → r = .resPop) : RunInv t := by
  cases h with
  | pop | noPop => exact { hs with }
  | cmd => exact runInv_startCommand (hs.draw_none_of_idle (idle_of_write hc hb (by simp))) v
  | _ =>
    have hidle := idle_of_write hc hb (by simp)
    exact runInv_of_idle hidle (hs.draw_none_of_idle hidle)

/-- A taken-up answer stays pending, and no request is left. -/
theorem runInv_answered {s : State} (hs : RunInv s) {q : DrawKind} (hq : s.draw = .requested q) (d : Word) :
    RunInv { s with draw := .answered d } :=
  { hs with
    draw_pending := iff_of_true (by simp) (hs.draw_pending.mp (by simp [hq]))
    word_request := by simp
    noise_request := by simp }

/-! ### The stored bits -/

/-- On an engine a word of the code fits the K_MAX bits of a word register. -/
theorem EngineInv.lt_of_lt_code {s : State} (h : EngineInv s) (ht : s.tableValid = true) {n : Nat}
    (hn : n < 2 ^ s.k.toNat) : n < 2 ^ s.cfg.kMax := by
  obtain ⟨-, hk, hcols⟩ := h.columns ht
  exact hn.trans_le (Nat.pow_le_pow_right two_pos (hk.trans hcols))

/-- On an engine a codeword fits the N_MAX bits of CW. -/
theorem EngineInv.enc_lt {s : State} (h : EngineInv s) (ht : s.tableValid = true) (w : Nat) :
    (enc s w).toNat < 2 ^ s.cfg.nMax :=
  encWith_lt _ (h.rows ht).2 _ _

/-- On an engine the decoded word fits DEC_WORD's K_MAX bits. -/
theorem EngineInv.dec_lt {s : State} (h : EngineInv s) (ht : s.tableValid = true) :
    (BitVec.ofNat 32 (dec s)).toNat < 2 ^ s.cfg.kMax :=
  ofNat_toNat_lt (h.lt_of_lt_code ht (dec_spec s).1)

/-- A step of a command writes only values of the registers' widths. -/
theorem ExecEffect.storeInv {s t : State} {i : Instr} (h : ExecEffect s i t) (hs : Inv s) (hp : s.phase = .run i) :
    StoreInv t := by
  have hst := hs.stores
  have hen := hs.engine
  cases h with
  | encode hcheck => exact { hst with cw_bits := hen.enc_lt (encodeCheck_none.mp hcheck).1 _ }
  | decode hcheck => exact { hst with decWord_bits := hen.dec_lt (decodeCheck_none.mp hcheck).1 }
  | trialEnd hpos =>
    exact { hst with decWord_bits := hen.dec_lt (hs.run.engine_of_pos (.inl rfl) hp hpos (by simp)) }
  | sweepTally hpos =>
    exact { hst with decWord_bits := hen.dec_lt (hs.run.engine_of_pos (.inr rfl) hp hpos (by simp)) }
  | sweepStart => exact { hst with sigma_bits := ofNat_toNat_lt hst.start_bits }
  | sweepNext _ hle => exact { hst with sigma_bits := ofNat_toNat_lt (hle.trans_lt hst.end_bits) }
  | gotWord d hi hpos =>
    have ht := hs.run.engine_of_pos hi hp hpos (by simp)
    exact { hst with word_bits := hen.lt_of_lt_code ht (lowBits_lt _ _), cw_bits := hen.enc_lt ht _ }
  | gotNoise j d hi hpos =>
    obtain ⟨-, -, -, -, -, hw, -⟩ := wellFormed_bounds hs.params
    have hj : j < s.cfg.nMax := (hs.run.coordinate (running_of_runsTrials hi hp) j (.inr hpos)).trans_le
      (hen.rows (hs.run.engine_of_pos hi hp hpos (by simp))).2
    exact { hst with
      rx_length := List.length_set.trans hst.rx_length
      rx_bits := forall_mem_set hst.rx_bits (sampleWord_chan_range hw _ _ _)
      rxValid_bits := setBit_lt hj hst.rxValid_bits }
  | _ => exact { hst with }

theorem storeInv_emptyStores {s : State} (hp : s.cfg.wellFormed = true) (h : StoreInv s) : StoreInv (emptyStores s) := by
  obtain ⟨-, -, -, -, hw4, hw32, -⟩ := wellFormed_bounds hp
  exact { h with
    grow_length := emptyStores_grow_length s
    grow_bits := emptyStores_grow_bits s
    rx_length := emptyStores_rx_length s
    rx_bits := emptyStores_rx_bits (by omega) hw32
    gValid_bits := Nat.two_pow_pos _
    rxValid_bits := Nat.two_pow_pos _ }

/-- A write that passes the width check of 20_memory.md R87 stores a value of the register's width. -/
theorem WriteEffect.storeInv {s t : State} {a : Nat} {v : Word} {r : Reg} (h : WriteEffect s v r t)
    (hp : s.cfg.wellFormed = true) (hs : StoreInv s) (hr : regAt s.cfg a = some r) (hf : fits s.cfg r v = true) :
    StoreInv t := by
  cases h with
  | gRows => exact storeInv_emptyStores hp { hs with }
  | gCols => exact storeInv_emptyStores hp { hs with }
  | word => exact { hs with word_bits := of_decide_eq_true hf }
  | sigma => exact { hs with sigma_bits := of_decide_eq_true hf }
  | sigmaStart => exact { hs with start_bits := of_decide_eq_true hf }
  | sigmaEnd => exact { hs with end_bits := of_decide_eq_true hf }
  | sigmaStep => exact { hs with step_bits := of_decide_eq_true hf }
  | cwtIndex => exact { hs with cwtIndex_bits := of_decide_eq_true hf }
  | grow i =>
    exact { hs with
      grow_length := List.length_set.trans hs.grow_length
      grow_bits := forall_mem_set hs.grow_bits (of_decide_eq_true hf)
      gValid_bits := setBit_lt (regAt_grow hr) hs.gValid_bits }
  | rx j =>
    exact { hs with
      rx_length := List.length_set.trans hs.rx_length
      rx_bits := forall_mem_set hs.rx_bits (of_decide_eq_true hf)
      rxValid_bits := setBit_lt (regAt_rx hr) hs.rxValid_bits }
  | _ => exact { hs with }

/-! ### The sweep's level and tallies -/

/-- The sweep is at a level that its bounds allow, with no more errors than trials. -/
def onLevel (s : State) : Prop :=
  (0 < s.sigmaStart.toNat ∧ 0 < s.sigmaStep.toNat ∧ 0 < s.trials.toNat) ∧
    (s.sigma.toNat = s.level ∧ s.level ≤ s.sigmaEnd.toNat ∧
      ∃ m, s.level = s.sigmaStart.toNat + m * s.sigmaStep.toNat) ∧
    s.errCount.toNat ≤ s.trialCount.toNat

theorem SweepInv.onLevel {s : State} (h : SweepInv s) (hp : s.phase = .run .sweep) {p : Pos} (hpos : s.pos = p)
    (hne : p ≠ .start) : onLevel s :=
  have hpos' : s.pos ≠ .start := hpos ▸ hne
  ⟨h.checked hp hpos', h.at_level hp hpos', (h.tallies hp hpos').1⟩

/-- Is the position one of a trial that has begun, up to its decode? -/
def inTrial : Pos → Bool
  | .drawWord | .takeWord | .drawNoise _ | .takeNoise _ | .judge => true
  | _ => false

theorem inTrial_nextCoordinate (s : State) (j : Nat) : inTrial (nextCoordinate s j) = true := by
  unfold nextCoordinate
  split <;> rfl

/-- In a trial a trial is still to be counted. -/
theorem SweepInv.trialCount_lt {s : State} (h : SweepInv s) (hp : s.phase = .run .sweep) (hpos : inTrial s.pos = true) :
    s.trialCount.toNat < s.trials.toNat := by
  have hne : s.pos ≠ .start ∧ s.pos ≠ .push ∧ s.pos ≠ .nextLevel := by
    refine ⟨?_, ?_, ?_⟩ <;> intro h <;> rw [h] at hpos <;> cases hpos
  obtain ⟨hstart, hpush, hnext⟩ := hne
  have htallies := (h.tallies hp hstart).2
  rwa [if_neg (by simp [hpush, hnext])] at htallies

/-- After the last trial of a level every trial is counted. -/
theorem SweepInv.trialCount_eq {s : State} (h : SweepInv s) (hp : s.phase = .run .sweep)
    (hpos : s.pos = .push ∨ s.pos = .nextLevel) : s.trialCount = s.trials := by
  have hstart : s.pos ≠ .start := by rcases hpos with hpos | hpos <;> simp [hpos]
  have htallies := (h.tallies hp hstart).2
  rwa [if_pos hpos] at htallies

theorem sweepInv_of_not_sweep {s : State} (h : s.phase ≠ .run .sweep) : SweepInv s :=
  ⟨fun hp => absurd hp h, fun hp => absurd hp h, fun hp => absurd hp h⟩

theorem sweepInv_of_start {s : State} (h : s.pos = .start) : SweepInv s :=
  ⟨fun _ hpos => absurd h hpos, fun _ hpos => absurd h hpos, fun _ hpos => absurd h hpos⟩

theorem sweepInv_inTrial {s : State} (h : onLevel s) (hlt : s.trialCount.toNat < s.trials.toNat)
    (hpos : inTrial s.pos = true) : SweepInv s := by
  obtain ⟨hchecked, hlevel, hle⟩ := h
  refine ⟨fun _ _ => hchecked, fun _ _ => hlevel, fun _ _ => ⟨hle, ?_⟩⟩
  have hne : ¬ (s.pos = .push ∨ s.pos = .nextLevel) := by
    rintro (h | h) <;> rw [h] at hpos <;> cases hpos
  rwa [if_neg hne]

theorem sweepInv_afterTrials {s : State} (h : onLevel s) (heq : s.trialCount = s.trials)
    (hpos : s.pos = .push ∨ s.pos = .nextLevel) : SweepInv s := by
  obtain ⟨hchecked, hlevel, hle⟩ := h
  refine ⟨fun _ _ => hchecked, fun _ _ => hlevel, fun _ _ => ⟨hle, ?_⟩⟩
  rwa [if_pos hpos]

/-- A level that 32 bits hold begins with its tallies at 0. -/
theorem sweepInv_beginLevel {s : State} (h : 0 < s.sigmaStart.toNat ∧ 0 < s.sigmaStep.toNat ∧ 0 < s.trials.toNat)
    {v m : Nat} (hv : v ≤ s.sigmaEnd.toNat) (hm : v = s.sigmaStart.toNat + m * s.sigmaStep.toNat) :
    SweepInv (beginLevel v s) := by
  have hword : (BitVec.ofNat 32 v).toNat = v :=
    (BitVec.toNat_ofNat _ _).trans (Nat.mod_eq_of_lt (hv.trans_lt s.sigmaEnd.isLt))
  exact sweepInv_inTrial ⟨h, ⟨hword, hv, m, hm⟩, le_rfl⟩ h.2.2 rfl

/-- Counting a trial keeps the errors at most the trials: neither count wraps, as a trial was still to be counted. -/
theorem sweepInv_tallyTrial {s : State} (h : onLevel s) (hlt : s.trialCount.toNat < s.trials.toNat) :
    SweepInv (tallyTrial s) := by
  obtain ⟨hchecked, hlevel, hle⟩ := h
  have hbound := s.trials.isLt
  have hcount : (s.trialCount + 1).toNat = s.trialCount.toNat + 1 := by bv_omega
  have herr : (tallyTrial s).errCount.toNat ≤ (tallyTrial s).trialCount.toNat := by
    simp only [tallyTrial_errCount, tallyTrial_trialCount]
    split <;> bv_omega
  by_cases hmore : s.trialCount.toNat + 1 < s.trials.toNat
  · exact sweepInv_inTrial ⟨hchecked, hlevel, herr⟩ (hcount.trans_lt hmore) (by simp [hmore, inTrial])
  · refine sweepInv_afterTrials ⟨hchecked, hlevel, herr⟩ (BitVec.eq_of_toNat_eq ?_) (.inl (by simp [hmore]))
    simp only [tallyTrial_trialCount, tallyTrial_trials]
    omega

theorem ExecEffect.sweepInv {s t : State} {i : Instr} (h : ExecEffect s i t) (hs : SweepInv s) (hp : s.phase = .run i) :
    SweepInv t := by
  cases h with
  | nop | illegal | buildError | build | encodeError | encode | decodeError | decode | trialError | trialEnd | sweepError
  | sweepEnd => exact sweepInv_of_not_sweep (by simp [raiseCmdError])
  | trialStart => exact sweepInv_of_not_sweep (by simp [hp])
  | sweepStart hpos hcheck =>
    obtain ⟨-, hstart, hlt, hstep, htrials⟩ := sweepCheck_none.mp hcheck
    exact sweepInv_beginLevel ⟨hstart, hstep, htrials⟩ hlt.le (m := 0) (by simp)
  | sweepTally hpos =>
    exact sweepInv_tallyTrial (hs.onLevel hp hpos (by simp)) (hs.trialCount_lt hp (by rw [hpos]; rfl))
  | sweepPush hpos =>
    exact sweepInv_afterTrials (hs.onLevel hp hpos (by simp)) (hs.trialCount_eq hp (.inl hpos)) (.inr rfl)
  | sweepNext hpos hle =>
    obtain ⟨hchecked, ⟨-, -, m, hm⟩, -⟩ := hs.onLevel hp hpos (by simp)
    exact sweepInv_beginLevel hchecked hle (m := m + 1) (by rw [hm]; ring)
  | hold => exact hs
  | askWord hi hpos | askNoise j hi hpos =>
    rcases hi with rfl | rfl
    · exact sweepInv_of_not_sweep (by simp [hp])
    · exact sweepInv_inTrial (hs.onLevel hp hpos (by simp)) (hs.trialCount_lt hp (by rw [hpos]; rfl)) rfl
  | gotWord d hi hpos | gotNoise j d hi hpos =>
    rcases hi with rfl | rfl
    · exact sweepInv_of_not_sweep (by simp [hp])
    · exact sweepInv_inTrial (hs.onLevel hp hpos (by simp)) (hs.trialCount_lt hp (by rw [hpos]; rfl))
        (inTrial_nextCoordinate s _)

theorem WriteEffect.sweepInv {s t : State} {v : Word} {r : Reg} (h : WriteEffect s v r t) (hc : ControlInv s)
    (hs : SweepInv s) (hb : s.busy = true → r = .resPop) : SweepInv t := by
  cases h with
  | pop | noPop => exact { hs with }
  | cmd => exact sweepInv_of_start rfl
  | _ =>
    have hidle := idle_of_write hc hb (by simp)
    exact sweepInv_of_not_sweep (by simp [hidle])

/-! ### The rows of the queue -/

/-- The row of a finished level is one that the queue may hold (43_simulation.md R209). -/
theorem levelRow_bounds {s : State} (hl : onLevel s) (hbits : s.sigma.toNat < 2 ^ s.cfg.sampleW)
    (hcount : s.trialCount = s.trials) :
    1 ≤ (levelRow s).sigma.toNat ∧ (levelRow s).sigma.toNat < 2 ^ s.cfg.sampleW ∧
      (levelRow s).errors.toNat ≤ (levelRow s).trials.toNat ∧ 1 ≤ (levelRow s).trials.toNat := by
  obtain ⟨⟨hstart, -, htrials⟩, ⟨hsigma, -, m, hm⟩, hle⟩ := hl
  have hrow : (levelRow s).sigma.toNat = s.level := by
    simp only [levelRow, ← hsigma, BitVec.ofNat_toNat, BitVec.setWidth_eq]
  refine ⟨by omega, by omega, hle, ?_⟩
  simp only [levelRow]
  rw [hcount]
  exact htrials

/-- A push only happens where there is room, and a pop and a reset only drop rows. -/
theorem MoveEffect.queueInv {s t : State} {m : Move} (h : MoveEffect s m t) (hs : Inv s) : QueueInv t := by
  obtain ⟨hdepth, hrows⟩ := hs.queue
  rcases h.resq_cases with hsame | ⟨-, hphase, hpos, hroom, hpush⟩ | ⟨v, -, -, hpop⟩ | ⟨-, hempty⟩
  · exact ⟨by rwa [hsame, h.cfg_eq], by rwa [hsame, h.cfg_eq]⟩
  · have hrow := levelRow_bounds (hs.sweep.onLevel hphase hpos (by simp)) hs.stores.sigma_bits
      (hs.sweep.trialCount_eq hphase (.inl hpos))
    refine ⟨by rw [hpush, h.cfg_eq, List.length_append, List.length_singleton]; omega, fun r hr => ?_⟩
    rw [hpush, List.mem_append, List.mem_singleton] at hr
    rw [h.cfg_eq]
    rcases hr with hr | rfl
    · exact hrows r hr
    · exact hrow
  · refine ⟨by rw [hpop, h.cfg_eq, List.length_tail]; omega, fun r hr => ?_⟩
    rw [hpop] at hr
    rw [h.cfg_eq]
    exact hrows r (List.mem_of_mem_tail hr)
  · exact ⟨by simp [hempty], by simp [hempty]⟩

/-! ### Reset -/

/-- Zeros fit every register. -/
theorem storeInv_resetFor (p : Params) : StoreInv (State.resetFor p) := by
  have hzero : ∀ v ∈ List.replicate p.nMax (0 : Word), v = 0 := fun v hv => List.eq_of_mem_replicate hv
  have hpow (n : Nat) : (0 : Word).toNat < 2 ^ n := Nat.two_pow_pos n
  have hsample : sampleMin p ≤ (0 : Word).toInt ∧ (0 : Word).toInt ≤ sampleMax p := by
    have hone : (1 : Int) ≤ 2 ^ (p.sampleW - 1) := one_le_pow₀ (by norm_num)
    have hint : (0 : Word).toInt = 0 := rfl
    unfold sampleMin sampleMax
    rw [hint]
    omega
  exact {
    grow_length := List.length_replicate
    grow_bits := fun v hv => hzero v hv ▸ hpow _
    rx_length := List.length_replicate
    rx_bits := fun v hv => hzero v hv ▸ hsample
    gValid_bits := hpow _
    rxValid_bits := hpow _
    word_bits := hpow _
    cw_bits := hpow _
    decWord_bits := hpow _
    cwtIndex_bits := hpow _
    sigma_bits := hpow _
    start_bits := hpow _
    end_bits := hpow _
    step_bits := hpow _ }

theorem inv_resetFor {p : Params} (hp : p.wellFormed = true) : Inv (State.resetFor p) where
  params := hp
  control := ⟨by simp [State.resetFor], by simp [State.resetFor], by simp [State.resetFor], by simp [State.resetFor]⟩
  run := runInv_of_idle rfl rfl
  engine := engineInv_of_invalid rfl rfl
  stores := storeInv_resetFor p
  sweep := sweepInv_of_start rfl
  queue := ⟨Nat.zero_le _, fun _ hr => absurd hr List.not_mem_nil⟩

/-! ### Every move keeps the whole invariant -/

/-- The invariant does not look at the model's own fields: the coming moves, the record and the free-value counter. -/
theorem Inv.of_own_fields {s : State} (h : Inv s) (ms : List Move) (rs : List Response) (n : Nat) :
    Inv { s with inputs := ms, responses := rs, freeCount := n } where
  params := h.params
  control := { h.control with }
  run := { h.run with }
  engine := { h.engine with }
  stores := { h.stores with }
  sweep := { h.sweep with }
  queue := { h.queue with }

theorem MoveEffect.controlInv {s t : State} {m : Move} (h : MoveEffect s m t) (hs : Inv s) : ControlInv t := by
  cases h with
  | run i _ he => exact he.controlInv hs.control
  | writeAccess a v r _ _ _ _ hw => exact { hw.controlInv hs.control with }
  | reset => exact { (inv_resetFor hs.params).control with }
  | _ => exact { hs.control with }

theorem MoveEffect.runInv {s t : State} {m : Move} (h : MoveEffect s m t) (hs : Inv s) : RunInv t := by
  cases h with
  | run i hp he => exact he.runInv hs.run hp
  | writeAccess a v r _ _ hb _ hw => exact { hw.runInv hs.control hs.run hb with }
  | answered q d hq => exact runInv_answered hs.run hq d
  | reset => exact runInv_of_idle rfl rfl
  | _ => exact { hs.run with }

theorem MoveEffect.storeInv {s t : State} {m : Move} (h : MoveEffect s m t) (hs : Inv s) : StoreInv t := by
  cases h with
  | run i hp he => exact he.storeInv hs hp
  | writeAccess a v r _ hr _ hf hw => exact { hw.storeInv hs.params hs.stores hr hf with }
  | reset => exact { storeInv_resetFor s.cfg with }
  | _ => exact { hs.stores with }

theorem MoveEffect.sweepInv {s t : State} {m : Move} (h : MoveEffect s m t) (hs : Inv s) : SweepInv t := by
  cases h with
  | run i hp he => exact he.sweepInv hs.sweep hp
  | writeAccess a v r _ _ hb _ hw => exact { hw.sweepInv hs.control hs.sweep hb with }
  | reset => exact sweepInv_of_start rfl
  | _ => exact { hs.sweep with }

theorem MoveEffect.inv {s t : State} {m : Move} (h : MoveEffect s m t) (hs : Inv s) : Inv t where
  params := h.cfg_eq ▸ hs.params
  control := h.controlInv hs
  run := h.runInv hs
  engine := h.engineInv hs.engine
  stores := h.storeInv hs
  sweep := h.sweepInv hs
  queue := h.queueInv hs

/-! ### The obligations -/

/-- Settles O58: each part of the invariant is kept by every move that a step can take. -/
theorem wholeInvariantIsKept : Obligations.WholeInvariantIsKept := fun s _ hs hstep =>
  (step_next hstep).inv (hs.of_own_fields s.inputs.tail s.responses s.freeCount)

/-- Settles O59. -/
theorem resetMeetsTheWholeInvariant : Obligations.ResetMeetsTheWholeInvariant :=
  ⟨fun _ hp => inv_resetFor hp, inv_resetFor (by decide)⟩

end Sys2Proof.Machine

/-! Proofs about one step (20_memory.md R90, R95; 41_engine_build_encode.md R160; 60_exceptions.md R258): which move it
takes, how a command starts, and what the window's access rights (20_memory.md R86) refuse. -/

namespace Sys2Proof.Machine
open Sys2Proof

/-! ### The move a step takes -/

theorem step_of_inputs_nil {s : State} (h : s.inputs = []) : step s = sequencerTurn s := by
  rw [step, h]

theorem step_of_inputs_cons {s : State} {m : Move} {rest : List Move} (h : s.inputs = m :: rest) :
    step s = applyMove m { s with inputs := rest } := by
  rw [step, h]

theorem sequencerTurn_run {s : State} {i : Instr} (h : s.phase = .run i) : sequencerTurn s = exec i s := by
  rw [sequencerTurn, h]

/-- Where the next move is the sequencer's, listed or not, the step is its turn on the state less that move. -/
theorem step_giveTurn (s : State) : step (giveTurn s) = sequencerTurn s := by
  cases h : s.inputs with
  | nil =>
    have hgive : giveTurn s = s := by cases s; simp_all [giveTurn]
    rw [hgive, step_of_inputs_nil h]
  | cons m rest =>
    have hgive : (giveTurn s).inputs = .sequencer :: m :: rest := by simp [giveTurn, h]
    have hless : { giveTurn s with inputs := m :: rest } = s := by cases s; simp_all [giveTurn]
    rw [step_of_inputs_cons hgive, hless, applyMove]

/-! ### A write to CMD -/

theorem regAt_cmd (p : Params) : regAt p 0x000 = some .cmd := regAt_low (by decide)

/-- While idle CMD takes every word and starts its command; while busy the write is refused (20_memory.md R88). -/
theorem hostAccess_write_cmd (s : State) (w : Word) :
    hostAccess (.write 0x000 4 w) s =
      if s.busy = true then respond errorResponse s else respond (okayResponse 0) (startCommand w s) := by
  rw [hostAccess_write rfl (regAt_cmd s.cfg)]
  by_cases hbusy : s.busy = true
  · rw [if_pos (.inl ⟨hbusy, rfl⟩), if_pos hbusy]
  · rw [if_neg (by simp [hbusy, accessOf, fits]), if_neg hbusy]
    rfl

/-! ### The read-only registers -/

/-- The offsets of the registers whose access column says read-only (20_memory.md R82). -/
def readOnlyOffsets : List Nat :=
  [0x004, 0x008, 0x018, 0x01C, 0x024, 0x028, 0x02C, 0x044, 0x048, 0x04C, 0x054, 0x058, 0x05C, 0x060, 0x064, 0x068]

theorem lookup_readOnlyOffsets :
    ∀ a ∈ readOnlyOffsets, (windowTable.lookup a).any (fun r => decide (accessOf r = .readOnly)) = true := by decide

theorem hostAccess_write_readOnlyOffset (s : State) {a : Nat} (h : a ∈ readOnlyOffsets) (v : Word) :
    hostAccess (.write a 4 v) s = answeredOnly ⟨.error, 0⟩ s := by
  obtain ⟨r, hl, hro⟩ := (Option.any_eq_true _ _).mp (lookup_readOnlyOffsets a h)
  obtain ⟨ha, hr⟩ := regAt_of_lookup s.cfg hl
  exact hostAccess_write_readOnly v ha hr (of_decide_eq_true hro)

/-! ### The obligations -/

/-- Settles O5: each clause is one move at the head of the list, and the last is the empty list. -/
theorem stepTakesTheNextMove : Obligations.StepTakesTheNextMove := by
  refine fun s rest => ⟨fun t h => ?_, fun d h => ?_, fun h => ?_, fun i hphase h => ?_, fun i hphase h => ?_⟩
  · rw [step_of_inputs_cons h, applyMove]
  · rw [step_of_inputs_cons h, applyMove]
  · rw [step_of_inputs_cons h, applyMove]
  · exact (step_of_inputs_cons h).trans (sequencerTurn_run hphase)
  · rw [step_of_inputs_nil h, sequencerTurn_run hphase]

/-- Settles O6: the write to CMD of `hostAccess_write_cmd`, as the step's move. -/
theorem writeToCmdStartsTheCommand : Obligations.WriteToCmdStartsTheCommand := by
  intro s w rest h
  rw [step_of_inputs_cons h, applyMove, hostAccess_write_cmd]
  by_cases hbusy : s.busy = true
  · rw [if_pos hbusy, if_pos hbusy]
    rfl
  · rw [if_neg hbusy, if_neg hbusy]
    rfl

/-- Settles O7: the started command has the sequencer's turn. -/
theorem fetchedWordRunsNext : Obligations.FetchedWordRunsNext := by
  rintro s nbits w i h
  obtain rfl : decode (tableWord nbits w) = i := Option.some.inj h
  rw [State.withFetchWord, loadCommand, step_giveTurn, sequencerTurn_run rfl]
  rfl

/-- Settles O8: an idle sequencer's turn changes nothing. -/
theorem idleCoreKeepsItsState : Obligations.IdleCoreKeepsItsState := by
  refine fun s rest hidle => ⟨fun h => ?_, fun h => ?_⟩
  · rw [step_of_inputs_nil h, sequencerTurn_idle hidle]
  · exact (step_of_inputs_cons h).trans (sequencerTurn_idle hidle)

/-- Settles O9: `step_effect` names the next state of every step. -/
theorem everyStepAnswers : Obligations.EveryStepAnswers := fun s =>
  let ⟨t, h, _⟩ := step_effect s
  ⟨t, h⟩

/-- Settles O37, by the two things an answer can do. -/
theorem answerNeedsARequest : Obligations.AnswerNeedsARequest := by
  refine fun s d => ⟨fun q hq => ?_, fun hnone => ?_⟩
  · rcases receiveAnswer_cases d s with ⟨-, -, htaken⟩ | ⟨hnone, -⟩
    · exact htaken
    · exact absurd hq (hnone q)
  · rcases receiveAnswer_cases d s with ⟨q, hq, -⟩ | ⟨-, hignored⟩
    · exact absurd hq (hnone q)
    · exact hignored

/-- Settles O41: the sixteen offsets are those of read-only registers; CMD and RES_POP read 0 as plain registers do. -/
theorem accessRightsAreEnforced : Obligations.AccessRightsAreEnforced := by
  refine fun s v => ⟨fun a ha => hostAccess_write_readOnlyOffset s ha v, fun hidle => ⟨?_, ?_⟩⟩
  · rw [hostAccess_read_plain (r := .cmd) rfl rfl rfl, if_pos hidle]
  · rw [hostAccess_read_plain (r := .resPop) rfl rfl rfl, if_pos hidle]

end Sys2Proof.Machine

/-! Proofs about the steps of TRIAL and SWEEP (43_simulation.md R203 to R207): the draws (30_encoding.md R125), the
decode of a trial, the row push and the next level. -/

namespace Sys2Proof.Machine
open Sys2Proof

/-! ### The value drawn -/

/-- Reading the low w bits as a signed integer changes the number by a multiple of 2^w. -/
theorem two_pow_dvd_signedLow_sub (w : Nat) (v : Word) : (2 ^ w : Int) ∣ signedLow w v - v.toNat := by
  have hmod : (2 ^ w : Int) ∣ (v.toNat % 2 ^ w : Int) - v.toNat := by
    simpa using Int.dvd_sub_self_of_emod_eq (a := v.toNat) (b := 2 ^ w) rfl
  unfold signedLow
  split
  · exact hmod
  · rw [sub_right_comm]
    exact Int.dvd_sub hmod (dvd_refl _)

/-! ### The steps of a trial -/

section
variable {s : State} {i : Instr} (hi : runsTrials i)
include hi

theorem exec_requestWord (hpos : s.pos = .drawWord) :
    exec i s = .next (requestDraw (.uniform s.k.toNat) .takeWord s) := by
  rcases hi with rfl | rfl
  · simp only [exec, execTrial, trialStep, hpos]
  · simp only [exec, execSweep, trialStep, hpos]

theorem exec_takeWord (hpos : s.pos = .takeWord) {d : Word} (hd : s.draw = .answered d) :
    exec i s = .next (takeWord d s) := by
  rcases hi with rfl | rfl
  · simp only [exec, execTrial, trialStep, hpos, hd]
  · simp only [exec, execSweep, trialStep, hpos, hd]

theorem exec_requestNoise {j : Nat} (hpos : s.pos = .drawNoise j) :
    exec i s = .next (requestDraw .normal (.takeNoise j) s) := by
  rcases hi with rfl | rfl
  · simp only [exec, execTrial, trialStep, hpos]
  · simp only [exec, execSweep, trialStep, hpos]

theorem exec_takeNoise {j : Nat} (hpos : s.pos = .takeNoise j) {d : Word} (hd : s.draw = .answered d) :
    exec i s = .next (takeNoise (trialSigma i s) j d s) := by
  rcases hi with rfl | rfl
  · simp only [exec, execTrial, trialStep, trialSigma, hpos, hd, if_true]
  · simp only [exec, execSweep, trialStep, trialSigma, hpos, hd, reduceCtorEq, if_false]

/-- Without an answer the sequencer holds (30_encoding.md R125). -/
theorem exec_awaiting (hpos : s.pos = .takeWord ∨ ∃ j, s.pos = .takeNoise j) (hd : ∀ d, s.draw ≠ .answered d) :
    exec i s = .next s := by
  have hhold (n : Nat) : trialStep n s = s := by
    unfold trialStep
    rcases hpos with hpos | ⟨j, hpos⟩ <;> rw [hpos] <;> cases hdraw : s.draw <;> simp_all
  rcases hi with rfl | rfl
  · rcases hpos with hpos | ⟨j, hpos⟩ <;> simp only [exec, execTrial, hpos, hhold]
  · rcases hpos with hpos | ⟨j, hpos⟩ <;> simp only [exec, execSweep, hpos, hhold]

end

theorem exec_trial_noEngine {s : State} (hpos : s.pos = .start) (ht : s.tableValid = false) :
    exec .trial s = .next (raiseCmdError .noEngine s) := by
  simp only [exec, execTrial, hpos, ht, if_true]

theorem exec_trial_start {s : State} (hpos : s.pos = .start) (ht : s.tableValid = true) :
    exec .trial s = .next { s with pos := .drawWord } := by
  simp only [exec, execTrial, hpos, ht, reduceCtorEq, if_false]

/-- The decoded word differs from a register's word as a number exactly when it does as a word. -/
theorem ofNat_dec_ne_iff (s : State) (w : Word) : BitVec.ofNat 32 (dec s) ≠ w ↔ dec s ≠ w.toNat := by
  rw [ne_eq, ne_eq, ← BitVec.toNat_inj, toNat_ofNat_dec]

/-- The decode of a trial as the fields it writes. -/
theorem judgeTrial_eq (s : State) :
    judgeTrial s =
      { s with
        decWord := BitVec.ofNat 32 (dec s), decCycles := Config.freeCycles s.freeCount, scan := scanAll s,
        freeCount := s.freeCount + 1, trialErr := decide (dec s ≠ s.word.toNat) } := by
  rw [← decide_eq_decide.mpr (ofNat_dec_ne_iff s s.word)]
  rfl

/-! ### The steps of a sweep between its trials -/

theorem exec_sweep_push {s : State} (hpos : s.pos = .push) : exec .sweep s = .next (pushLevelRow s) := by
  simp only [exec, execSweep, hpos]

theorem exec_sweep_nextLevel {s : State} (hpos : s.pos = .nextLevel) : exec .sweep s = .next (advanceLevel s) := by
  simp only [exec, execSweep, hpos]

theorem pushLevelRow_of_room {s : State} (h : s.resq.length < s.cfg.resqDepth) :
    pushLevelRow s = { appendRow (levelRow s) s with pos := .nextLevel } := if_pos h

theorem pushLevelRow_of_full {s : State} (h : s.cfg.resqDepth ≤ s.resq.length) : pushLevelRow s = s :=
  if_neg (Nat.not_lt.mpr h)

theorem advanceLevel_of_le {s : State} (h : s.level + s.sigmaStep.toNat ≤ s.sigmaEnd.toNat) :
    advanceLevel s = beginLevel (s.level + s.sigmaStep.toNat) s := if_pos h

theorem advanceLevel_of_gt {s : State} (h : s.sigmaEnd.toNat < s.level + s.sigmaStep.toNat) :
    advanceLevel s = complete 0 { s with level := s.level + s.sigmaStep.toNat } := if_neg (Nat.not_le.mpr h)

/-! ### The obligations -/

/-- Settles O26. -/
theorem drawsAreReducedToWidth : Obligations.DrawsAreReducedToWidth := by
  intro s d hw
  obtain ⟨hlo, hhi⟩ := signedLow_range hw d
  exact ⟨lowBits_toNat _ d, hlo, Int.lt_of_le_sub_one hhi, two_pow_dvd_signedLow_sub _ d⟩

/-- Settles O27: the two outcomes of TRIAL's start check. -/
theorem trialChecksForAnEngine : Obligations.TrialChecksForAnEngine :=
  fun _ hpos => ⟨exec_trial_noEngine hpos, exec_trial_start hpos⟩

/-- Settles O28: the two requests and the hold are the same for both commands. -/
theorem drawsAreRequestedAndAwaited : Obligations.DrawsAreRequestedAndAwaited :=
  fun _ _ hi => ⟨exec_requestWord hi, fun _ => exec_requestNoise hi, exec_awaiting hi⟩

/-- Settles O29: the two answers taken; the commands differ only in the noise level. -/
theorem answersFillWordAndSamples : Obligations.AnswersFillWordAndSamples :=
  fun _ _ _ hi hd => ⟨fun hpos => exec_takeWord hi hpos hd, fun _ hpos => exec_takeNoise hi hpos hd⟩

/-- Settles O30. -/
theorem trialEndsWithItsErrorFlag : Obligations.TrialEndsWithItsErrorFlag := by
  intro s hpos
  refine ⟨Config.freeCycles s.freeCount, scanAll s, s.freeCount + 1, ?_⟩
  rw [exec_trial_judge hpos, judgeTrial_eq]
  rfl

/-- Settles O33: an error adds 1 to ERR_COUNT, no error adds 0. -/
theorem sweepTalliesEachTrial : Obligations.SweepTalliesEachTrial := by
  intro s hpos
  refine ⟨Config.freeCycles s.freeCount, scanAll s, s.freeCount + 1, ?_⟩
  rw [exec_sweep_judge hpos, judgeTrial_eq, tallyTrial]
  by_cases herr : dec s ≠ s.word.toNat
  · simp [herr]
  · simp [herr]

/-- Settles O34: with room and without. -/
theorem sweepPushesOrHolds : Obligations.SweepPushesOrHolds := by
  refine fun s hpos => ⟨fun hroom => ?_, fun hfull => ?_⟩
  · rw [exec_sweep_push hpos, pushLevelRow_of_room hroom]
    rfl
  · rw [exec_sweep_push hpos, pushLevelRow_of_full hfull]

/-- Settles O35: a level that runs is at most SIGMA_END, so SIGMA's 32 bits hold it. -/
theorem sweepAdvancesOrCompletes : Obligations.SweepAdvancesOrCompletes := by
  refine fun s hpos => ⟨fun hle => ⟨BitVec.ofNat 32 (s.level + s.sigmaStep.toNat), ?_, ?_⟩, fun hgt => ?_⟩
  · rw [BitVec.toNat_ofNat, Nat.mod_eq_of_lt (hle.trans_lt s.sigmaEnd.isLt)]
  · rw [exec_sweep_nextLevel hpos, advanceLevel_of_le hle]
    rfl
  · rw [exec_sweep_nextLevel hpos, advanceLevel_of_gt hgt]
    rfl

end Sys2Proof.Machine

/-! Proofs about the result fields that the host computes from a row (43_simulation.md R226). -/

namespace Sys2Proof.Machine
open Sys2Proof

theorem sigmaReal_pos (p : Params) {r : ResultRow} (h : 1 ≤ r.sigma.toNat) : 0 < sigmaReal p r := by
  have hsigma : (0 : Rat) < r.sigma.toNat := by exact_mod_cast h
  exact div_pos hsigma (by positivity)

theorem errorRate_nonneg (r : ResultRow) : 0 ≤ errorRate r := div_nonneg (Nat.cast_nonneg _) (Nat.cast_nonneg _)

theorem errorRate_le_one {r : ResultRow} (h : r.errors.toNat ≤ r.trials.toNat) : errorRate r ≤ 1 :=
  div_le_one_of_le₀ (by exact_mod_cast h) (Nat.cast_nonneg _)

/-- The SNR is the level's own logarithm: the inverse square comes out as the factor -2. -/
theorem snrDb_eq (p : Params) (r : ResultRow) : snrDb p r = -20 * Real.logb 10 (sigmaReal p r) := by
  rw [snrDb, one_div, Real.logb_inv, Real.logb_pow]
  push_cast
  ring

theorem avgDuration_of_no_cycle (tClk : ClockPeriod) {r : ResultRow} (h : r.cycles = 0) : avgDuration tClk r = 0 := by
  simp [avgDuration, h]

theorem avgDuration_pos (tClk : ClockPeriod) {r : ResultRow} (h : r.cycles ≠ 0) (ht : 1 ≤ r.trials.toNat) :
    0 < avgDuration tClk r := by
  have hcycles : (0 : Rat) < r.cycles.toNat := by
    exact_mod_cast Nat.pos_of_ne_zero fun hzero => h (BitVec.eq_of_toNat_eq hzero)
  have htrials : (0 : Rat) < r.trials.toNat := by exact_mod_cast ht
  exact div_pos (mul_pos hcycles tClk.positive) htrials

/-- Settles O60: the bounds are those of the queue's invariant. -/
theorem resultFieldsAreInRange : Obligations.ResultFieldsAreInRange := by
  intro s r tClk hs hr
  obtain ⟨hsigma, -, herrors, htrials⟩ := hs.queue.rows r hr
  exact ⟨sigmaReal_pos s.cfg hsigma, errorRate_nonneg r, errorRate_le_one herrors, snrDb_eq s.cfg r,
    avgDuration_of_no_cycle tClk, fun hcycles => avgDuration_pos tClk hcycles htrials⟩

end Sys2Proof.Machine

/-! Proofs about whole runs (43_simulation.md R203 to R209): a trial whose draws are answered, and TRIAL from its start
to its completion. -/

namespace Sys2Proof.Machine
open Sys2Proof

/-! ### One draw -/

/-- The moves of one draw that is answered as soon as it is asked for: the request, the answer, its taking. -/
def drawTurns (d : Word) : List Move := [.sequencer, .answer d, .sequencer]

theorem trialTurns_eq (u : Word) (zs : List Word) :
    trialTurns u zs = drawTurns u ++ (zs.flatMap drawTurns ++ [.sequencer]) := by
  rw [trialTurns, List.flatMap_cons, List.append_assoc]
  rfl

/-- A listed turn of the sequencer runs the command. -/
theorem step_sequencer {s : State} {i : Instr} {rest : List Move} (hphase : s.phase = .run i)
    (hin : s.inputs = .sequencer :: rest) : step s = exec i { s with inputs := rest } :=
  (step_of_inputs_cons hin).trans (sequencerTurn_run hphase)

/-- A draw takes three steps: the request q at position p, the answer, and what the command does with the answer. -/
theorem run_drawTurns {s t : State} {i : Instr} {d : Word} {rest : List Move} {q : DrawKind} {p : Pos}
    (hphase : s.phase = .run i) (hin : s.inputs = drawTurns d ++ rest)
    (hask : ∀ ms, exec i { s with inputs := ms } = .next (requestDraw q p { s with inputs := ms }))
    (htake : exec i { s with draw := .answered d, pos := p, inputs := rest } = .next t) :
    Host.Core.run core 3 s = .next t := by
  let s₁ : State := requestDraw q p { s with inputs := .answer d :: .sequencer :: rest }
  let s₂ : State := { s with draw := .answered d, pos := p, inputs := .sequencer :: rest }
  have hrequest : step s = .next s₁ := (step_sequencer hphase hin).trans (hask _)
  have hanswer : step s₁ = .next s₂ := rfl
  have htaken : step s₂ = .next t := (step_sequencer (s := s₂) hphase rfl).trans htake
  exact (run_succ 2 hrequest).trans ((run_succ 1 hanswer).trans (run_one htaken))

theorem run_word {s : State} {i : Instr} {d : Word} {rest : List Move} (hi : runsTrials i) (hphase : s.phase = .run i)
    (hpos : s.pos = .drawWord) (hin : s.inputs = drawTurns d ++ rest) :
    Host.Core.run core 3 s = .next (takeWord d { s with inputs := rest }) :=
  run_drawTurns (q := .uniform s.k.toNat) hphase hin
    (fun ms => exec_requestWord (s := { s with inputs := ms }) hi hpos) (exec_takeWord hi rfl rfl)

theorem run_noise {s : State} {i : Instr} {j : Nat} {d : Word} {rest : List Move} (hi : runsTrials i)
    (hphase : s.phase = .run i) (hpos : s.pos = .drawNoise j) (hin : s.inputs = drawTurns d ++ rest) :
    Host.Core.run core 3 s = .next (takeNoise (trialSigma i s) j d { s with inputs := rest }) :=
  run_drawTurns hphase hin (fun ms => exec_requestNoise (s := { s with inputs := ms }) hi hpos)
    (exec_takeNoise hi rfl rfl)

/-! ### All the noise of a trial -/

/-- The answers zs taken as the noise of the coordinates from j on. -/
def takeNoises (sigma : Nat) : Nat → List Word → State → State
  | _, [], s => s
  | j, z :: zs, s => takeNoises sigma (j + 1) zs (takeNoise sigma j z s)

theorem nextCoordinate_of_lt {s : State} {j : Nat} (h : j < s.gRows.toNat) : nextCoordinate s j = .drawNoise j :=
  if_pos h

theorem nextCoordinate_of_ge {s : State} {j : Nat} (h : s.gRows.toNat ≤ j) : nextCoordinate s j = .judge :=
  if_neg (Nat.not_lt.mpr h)

/-- The noise of the coordinates changes the samples and the sequencer's position alone. -/
theorem takeNoises_frame (sigma : Nat) (zs : List Word) (j : Nat) {s : State} (hd : s.draw = .none) :
    ∃ rx v p, takeNoises sigma j zs s = { s with rx := rx, rxValid := v, pos := p } := by
  induction zs generalizing j s with
  | nil => exact ⟨s.rx, s.rxValid, s.pos, rfl⟩
  | cons z zs ih =>
    obtain ⟨rx, v, p, h⟩ := ih (j + 1) (s := takeNoise sigma j z s) rfl
    exact ⟨rx, v, p, by rw [takeNoises, h, takeNoise, hd]⟩

theorem takeNoises_pos (sigma : Nat) {zs : List Word} {j : Nat} {s : State} (hpos : s.pos = nextCoordinate s j) :
    (takeNoises sigma j zs s).pos = nextCoordinate s (j + zs.length) := by
  induction zs generalizing j s with
  | nil => exact hpos
  | cons z zs ih =>
    rw [takeNoises, ih (s := takeNoise sigma j z s) rfl, List.length_cons, Nat.add_right_comm, Nat.add_assoc]
    rfl

/-- Entry m of a file after entry j was written. -/
theorem entryAt_set {file : List Word} {j : Nat} (hj : j < file.length) (v : Word) (m : Nat) :
    entryAt (file.set j v) m = if m = j then v else entryAt file m := by
  rw [entryAt, entryAt, List.getD_eq_getElem?_getD, List.getD_eq_getElem?_getD, List.getElem?_set]
  by_cases h : j = m
  · simp [h, h ▸ hj]
  · simp [h, Ne.symm h]

/-- Sample m after the noise: a noisy one for the coordinates that zs covers, and the old one elsewhere. -/
theorem takeNoises_rx (sigma : Nat) {zs : List Word} {j : Nat} {s : State} (hlen : j + zs.length ≤ s.rx.length)
    (m : Nat) :
    entryAt (takeNoises sigma j zs s).rx m =
      if j ≤ m ∧ m < j + zs.length then
        sampleWord (chan s.cfg (s.cw.getLsbD m) sigma (drawnNormal s (entryAt zs (m - j))))
      else entryAt s.rx m := by
  induction zs generalizing j s with
  | nil => rw [takeNoises, if_neg (by simp)]
  | cons z zs ih =>
    rw [List.length_cons] at hlen
    rw [takeNoises, ih (by rw [takeNoise_rx, List.length_set]; omega), takeNoise_rx, entryAt_set (by omega),
      List.length_cons]
    rcases Nat.lt_trichotomy m j with h | rfl | h
    · rw [if_neg (by omega), if_neg (by omega), if_neg (by omega)]
    · rw [if_neg (by omega), if_pos rfl, if_pos (by omega), Nat.sub_self]
      rfl
    · have htail : entryAt zs (m - (j + 1)) = entryAt (z :: zs) (m - j) := by
        rw [show m - j = (m - (j + 1)) + 1 by omega]
        rfl
      rw [htail, if_neg (by omega : ¬ m = j)]
      exact if_congr (by omega) rfl rfl

theorem takeNoises_rxValid (sigma : Nat) {zs : List Word} {j : Nat} {s : State} {m : Nat} (hm : m < 32) :
    (takeNoises sigma j zs s).rxValid.getLsbD m =
      (s.rxValid.getLsbD m || decide (j ≤ m ∧ m < j + zs.length)) := by
  induction zs generalizing j s with
  | nil => simp [takeNoises]
  | cons z zs ih =>
    rw [takeNoises, ih, takeNoise_rxValid, setBit_getLsbD _ _ _ hm, List.length_cons, Bool.or_assoc, ← Bool.decide_or]
    congr 2
    exact propext (by omega)

/-- The model's list of coming moves does not bear on the noise. -/
theorem takeNoises_inputs (sigma : Nat) (zs : List Word) (j : Nat) (s : State) (ms : List Move) :
    takeNoises sigma j zs { s with inputs := ms } = { takeNoises sigma j zs s with inputs := ms } := by
  induction zs generalizing j s with
  | nil => rfl
  | cons z zs ih => exact ih (j + 1) (takeNoise sigma j z s)

theorem run_noises {i : Instr} (hi : runsTrials i) {zs : List Word} {j : Nat} {s : State} {rest : List Move}
    (hphase : s.phase = .run i) (hpos : s.pos = nextCoordinate s j) (hlen : j + zs.length = s.gRows.toNat)
    (hin : s.inputs = zs.flatMap drawTurns ++ rest) :
    Host.Core.run core (3 * zs.length) s = .next (takeNoises (trialSigma i s) j zs { s with inputs := rest }) := by
  induction zs generalizing j s with
  | nil =>
    have hs : { s with inputs := rest } = s := by
      rw [← List.nil_append rest]
      exact hin ▸ rfl
    rw [takeNoises, hs]
    rfl
  | cons z zs ih =>
    rw [List.length_cons] at hlen
    rw [nextCoordinate_of_lt (by omega)] at hpos
    rw [List.flatMap_cons, List.append_assoc] at hin
    rw [List.length_cons, Nat.mul_succ, Nat.add_comm, run_add _ (run_noise hi hphase hpos hin), takeNoises]
    exact ih hphase rfl (by simp only [takeNoise_gRows]; omega) rfl

/-! ### A trial up to its decode -/

/-- The state before the decode of a trial that was answered word u and noises zs. -/
def trialDraws (sigma : Nat) (u : Word) (zs : List Word) (s : State) : State := takeNoises sigma 0 zs (takeWord u s)

theorem run_trialDraws {i : Instr} (hi : runsTrials i) {u : Word} {zs : List Word} {s : State} {rest : List Move}
    (hphase : s.phase = .run i) (hpos : s.pos = .drawWord) (hlen : zs.length = s.gRows.toNat)
    (hin : s.inputs = trialTurns u zs ++ rest) :
    Host.Core.run core (3 + 3 * s.gRows.toNat) s =
      .next (trialDraws (trialSigma i s) u zs { s with inputs := .sequencer :: rest }) := by
  rw [trialTurns_eq, List.append_assoc, List.append_assoc] at hin
  rw [run_add _ (run_word hi hphase hpos hin), ← hlen]
  exact run_noises hi (j := 0) hphase rfl (by simpa using hlen) rfl

/-- The turn after the draws is the decode of the command. -/
theorem trialDraws_pos (sigma : Nat) (u : Word) {zs : List Word} {s : State} (hlen : zs.length = s.gRows.toNat) :
    (trialDraws sigma u zs s).pos = .judge := by
  rw [trialDraws, takeNoises_pos sigma (s := takeWord u s) rfl]
  exact nextCoordinate_of_ge (by simp only [takeWord_gRows]; omega)

theorem trialDraws_inputs (sigma : Nat) (u : Word) (zs : List Word) (s : State) (ms : List Move) :
    trialDraws sigma u zs { s with inputs := ms } = { trialDraws sigma u zs s with inputs := ms } :=
  takeNoises_inputs sigma zs 0 (takeWord u s) ms

theorem trialDraws_frame (sigma : Nat) (u : Word) (zs : List Word) (s : State) :
    ∃ rx v p, trialDraws sigma u zs s =
      { s with
        draw := .none, word := drawnWord s u, cw := enc s (drawnWord s u).toNat, rx := rx, rxValid := v, pos := p } :=
  takeNoises_frame sigma zs 0 (s := takeWord u s) rfl

/-- A whole trial: its draws, then the command's step at the decode. -/
theorem run_trialTurns {i : Instr} (hi : runsTrials i) {u : Word} {zs : List Word} {s t : State} {rest : List Move}
    (hphase : s.phase = .run i) (hpos : s.pos = .drawWord) (hlen : zs.length = s.gRows.toNat)
    (hin : s.inputs = trialTurns u zs ++ rest)
    (hjudge : exec i (trialDraws (trialSigma i s) u zs { s with inputs := rest }) = .next t) :
    Host.Core.run core (4 + 3 * s.gRows.toNat) s = .next t := by
  have hphase' : (trialDraws (trialSigma i s) u zs { s with inputs := .sequencer :: rest }).phase = .run i := by
    obtain ⟨rx, v, p, h⟩ := trialDraws_frame (trialSigma i s) u zs { s with inputs := .sequencer :: rest }
    rw [h]
    exact hphase
  rw [show 4 + 3 * s.gRows.toNat = 3 + 3 * s.gRows.toNat + 1 by omega,
    run_add 1 (run_trialDraws hi hphase hpos hlen hin)]
  refine run_one ((step_sequencer (rest := rest) hphase' ?_).trans ?_)
  · rw [trialDraws_inputs]
  · rw [trialDraws_inputs] at hjudge ⊢
    exact hjudge

/-! ### The obligation -/

/-- Settles O31: after the start check one trial, whose decode completes the command. -/
theorem trialRunsFromStartToFinish : Obligations.TrialRunsFromStartToFinish := by
  intro s u zs hinv hphase hpos ht hlen hin
  have hd : s.draw = .none := hinv.run.draw_none hpos rfl
  obtain ⟨-, hnMax, -⟩ := wellFormed_bounds hinv.params
  have hrows : s.gRows.toNat ≤ s.cfg.nMax := (hinv.engine.rows ht).2
  have hfile : 0 + zs.length ≤ s.rx.length := by rw [hinv.stores.rx_length]; omega
  let s₁ : State := { s with pos := .drawWord, inputs := [] }
  have hjudge := trialDraws_pos s.sigma.toNat u (s := s₁) hlen
  have hrx := takeNoises_rx s.sigma.toNat (s := takeWord u s₁) hfile
  have hvalid := fun m => takeNoises_rxValid s.sigma.toNat (zs := zs) (j := 0) (s := takeWord u s₁) (m := m)
  have hstart : step s = .next { s with pos := .drawWord, inputs := trialTurns u zs ++ [] } := by
    rw [List.append_nil]
    exact (step_sequencer hphase hin).trans (exec_trial_start hpos ht)
  have hrun : Host.Core.run core (5 + 3 * s.gRows.toNat) s =
      .next (complete 0 (judgeTrial (trialDraws s.sigma.toNat u zs s₁))) := by
    rw [show 5 + 3 * s.gRows.toNat = 4 + 3 * s.gRows.toNat + 1 by omega, run_succ _ hstart]
    exact run_trialTurns (s := { s with pos := .drawWord, inputs := trialTurns u zs ++ [] }) (.inl rfl) hphase rfl hlen
      rfl (exec_trial_judge hjudge)
  refine ⟨_, hrun, ?_⟩
  obtain ⟨rx, v, p, hframe⟩ := trialDraws_frame s.sigma.toNat u zs s₁
  rw [trialDraws] at hframe
  rw [trialDraws, judgeTrial_eq]
  rw [hframe] at hrx hvalid ⊢
  refine ⟨?fields, fun j hj => ⟨?sample, ?valid⟩, fun j hj => ⟨?oldSample, fun hj32 => ?oldValid⟩⟩
  case fields => rw [← hd]; rfl
  case sample =>
    have hnew := hrx j
    rw [if_pos (by omega)] at hnew
    exact hnew
  case valid =>
    have hset := hvalid j (by omega)
    rw [decide_eq_true (by omega), Bool.or_true] at hset
    exact hset
  case oldSample =>
    have hold := hrx j
    rw [if_neg (by omega)] at hold
    exact hold
  case oldValid =>
    have hold := hvalid j hj32
    rw [decide_eq_false (by omega), Bool.or_false] at hold
    exact hold

end Sys2Proof.Machine

/-! Proofs about a whole sweep (43_simulation.md R206, R209): its trials, its levels and its rows. -/

namespace Sys2Proof.Machine
open Sys2Proof

/-! ### What a sweep leaves alone -/

/-- t has the engine and the bounds of the sweep that s has. -/
structure SameSweep (s t : State) : Prop extends SameEngine s t where
  sigmaStart : t.sigmaStart = s.sigmaStart
  sigmaEnd   : t.sigmaEnd = s.sigmaEnd
  sigmaStep  : t.sigmaStep = s.sigmaStep
  trials     : t.trials = s.trials

theorem SameSweep.trans {s t u : State} (h : SameSweep s t) (h' : SameSweep t u) : SameSweep s u where
  cfg := h'.cfg.trans h.cfg
  gRows := h'.gRows.trans h.gRows
  gCols := h'.gCols.trans h.gCols
  k := h'.k.trans h.k
  grow := h'.grow.trans h.grow
  gValid := h'.gValid.trans h.gValid
  cwt := h'.cwt.trans h.cwt
  tableValid := h'.tableValid.trans h.tableValid
  sigmaStart := h'.sigmaStart.trans h.sigmaStart
  sigmaEnd := h'.sigmaEnd.trans h.sigmaEnd
  sigmaStep := h'.sigmaStep.trans h.sigmaStep
  trials := h'.trials.trans h.trials

/-- t stands within the level of the sweep that s stands in, with the rows pushed so far. -/
structure SameLevel (s t : State) : Prop extends SameSweep s t where
  phase : t.phase = s.phase
  level : t.level = s.level
  resq  : t.resq = s.resq

theorem SameLevel.trans {s t u : State} (h : SameLevel s t) (h' : SameLevel t u) : SameLevel s u where
  toSameSweep := h.toSameSweep.trans h'.toSameSweep
  phase := h'.phase.trans h.phase
  level := h'.level.trans h.level
  resq := h'.resq.trans h.resq

/-- A run keeps the whole invariant. -/
theorem Inv.of_run {n : Nat} {s t : State} (hs : Inv s) (h : Host.Core.run core n s = .next t) : Inv t := by
  induction n generalizing s with
  | zero =>
    cases h
    exact hs
  | succ n ih =>
    obtain ⟨s', hstep, -⟩ := step_effect s
    rw [run_succ n hstep] at h
    exact ih (wholeInvariantIsKept s s' hs hstep) h

/-! ### The trials of a level -/

/-- Where a level stands before a trial or, with all of them counted, before the row push. -/
def betweenTrials (s : State) : Pos := if s.trialCount.toNat < s.trials.toNat then .drawWord else .push

/-- One trial of a level: its draws, the decode and the tallies. -/
theorem run_sweepTrial {u : Word} {zs : List Word} {s : State} {rest : List Move} (hphase : s.phase = .run .sweep)
    (hpos : s.pos = .drawWord) (hlen : zs.length = s.gRows.toNat) (hin : s.inputs = trialTurns u zs ++ rest) :
    ∃ t : State, Host.Core.run core (4 + 3 * s.gRows.toNat) s = .next t ∧ SameLevel s t ∧ t.inputs = rest ∧
      t.trialCount = s.trialCount + 1 ∧
      t.pos = if s.trialCount.toNat + 1 < s.trials.toNat then .drawWord else .push := by
  have hjudge := trialDraws_pos s.level u (s := { s with inputs := rest }) hlen
  refine ⟨_, run_trialTurns (.inr rfl) hphase hpos hlen hin (exec_sweep_judge hjudge), ?_⟩
  obtain ⟨rx, v, p, hframe⟩ := trialDraws_frame (trialSigma .sweep s) u zs { s with inputs := rest }
  rw [hframe]
  exact ⟨⟨⟨⟨rfl, rfl, rfl, rfl, rfl, rfl, rfl, rfl⟩, rfl, rfl, rfl, rfl⟩, rfl, rfl, rfl⟩, rfl, rfl, rfl⟩

/-- The trials still to come in a level, one for each entry of rs. -/
theorem run_sweepTrials {u : Nat → Word} {z : Nat → List Word} {rs : List Nat} {s : State} {rest : List Move}
    (hphase : s.phase = .run .sweep) (hpos : s.pos = betweenTrials s) (hlen : ∀ r, (z r).length = s.gRows.toNat)
    (hcount : s.trialCount.toNat + rs.length = s.trials.toNat)
    (hin : s.inputs = (rs.flatMap fun r => trialTurns (u r) (z r)) ++ rest) :
    ∃ t : State, Host.Core.run core (rs.length * (4 + 3 * s.gRows.toNat)) s = .next t ∧ SameLevel s t ∧ t.inputs = rest ∧
      t.pos = .push := by
  induction rs generalizing s with
  | nil =>
    have hpush : betweenTrials s = .push := if_neg (by simp at hcount; omega)
    rw [List.length_nil, Nat.zero_mul]
    exact ⟨s, rfl, ⟨⟨⟨rfl, rfl, rfl, rfl, rfl, rfl, rfl, rfl⟩, rfl, rfl, rfl, rfl⟩, rfl, rfl, rfl⟩, hin,
      hpos.trans hpush⟩
  | cons r rs ih =>
    rw [List.length_cons] at hcount
    have hmore : betweenTrials s = .drawWord := if_pos (by omega)
    rw [List.flatMap_cons, List.append_assoc] at hin
    obtain ⟨s₁, hrun, hsame, hin₁, hcount₁, hpos₁⟩ := run_sweepTrial hphase (hpos.trans hmore) (hlen r) hin
    have hnowrap : s₁.trialCount.toNat = s.trialCount.toNat + 1 := by
      have := s.trials.isLt
      rw [hcount₁]
      bv_omega
    obtain ⟨t, hrun', hsame', hin', hpos'⟩ := ih (s := s₁) (hsame.phase.trans hphase)
      (by rw [hpos₁, betweenTrials, hnowrap, ← hsame.trials]) (by rwa [hsame.gRows])
      (by rw [hnowrap, hsame.trials]; omega) hin₁
    refine ⟨t, ?_, hsame.trans hsame', hin', hpos'⟩
    rw [List.length_cons, Nat.succ_mul, Nat.add_comm, run_add _ hrun, ← hsame.gRows]
    exact hrun'

/-! ### The levels of a sweep -/

/-- The moves of one level of T trials: the trials, the push and the advance. -/
def levelTurns (u : Nat → Word) (z : Nat → List Word) (T : Nat) : List Move :=
  ((List.range T).flatMap fun r => trialTurns (u r) (z r)) ++ [.sequencer, .sequencer]

section
variable {s : State} {rest : List Move} (hphase : s.phase = .run .sweep) (hin : s.inputs = .sequencer :: rest)
include hphase hin

theorem step_push (hpos : s.pos = .push) (hroom : s.resq.length < s.cfg.resqDepth) :
    step s = .next { appendRow (levelRow s) s with pos := .nextLevel, inputs := rest } := by
  rw [step_sequencer hphase hin, exec_sweep_push (s := { s with inputs := rest }) hpos,
    pushLevelRow_of_room (s := { s with inputs := rest }) hroom]
  rfl

theorem step_nextLevel (hpos : s.pos = .nextLevel) (hle : s.level + s.sigmaStep.toNat ≤ s.sigmaEnd.toNat) :
    step s = .next (beginLevel (s.level + s.sigmaStep.toNat) { s with inputs := rest }) := by
  rw [step_sequencer hphase hin, exec_sweep_nextLevel (s := { s with inputs := rest }) hpos,
    advanceLevel_of_le (s := { s with inputs := rest }) hle]

theorem step_sweepEnd (hpos : s.pos = .nextLevel) (hgt : s.sigmaEnd.toNat < s.level + s.sigmaStep.toNat) :
    step s = .next (complete 0 { s with inputs := rest, level := s.level + s.sigmaStep.toNat }) := by
  rw [step_sequencer hphase hin, exec_sweep_nextLevel (s := { s with inputs := rest }) hpos,
    advanceLevel_of_gt (s := { s with inputs := rest }) hgt]

end

/-- A level from its start to its row: the trials, and the push into a queue with room. -/
theorem run_level {u : Nat → Word} {z : Nat → List Word} {s : State} {rest : List Move} (hs : Inv s)
    (hphase : s.phase = .run .sweep) (hpos : s.pos = .drawWord) (hlen : ∀ r, (z r).length = s.gRows.toNat)
    (hcount : s.trialCount = 0) (hroom : s.resq.length < s.cfg.resqDepth)
    (hin : s.inputs = levelTurns u z s.trials.toNat ++ rest) :
    ∃ (t : State) (row : ResultRow),
      Host.Core.run core (s.trials.toNat * (4 + 3 * s.gRows.toNat) + 1) s = .next t ∧ SameSweep s t ∧
      t.phase = .run .sweep ∧ t.level = s.level ∧ t.inputs = .sequencer :: rest ∧ t.pos = .nextLevel ∧
      t.resq = s.resq ++ [row] ∧ row.sigma.toNat = s.level ∧ row.trials = s.trials ∧
      row.errors.toNat ≤ s.trials.toNat := by
  have hfirst : s.pos = betweenTrials s := by
    have htrials := (hs.sweep.onLevel hphase hpos (by simp)).1.2.2
    rw [hpos, betweenTrials, if_pos (by simpa [hcount] using htrials)]
  rw [levelTurns, List.append_assoc] at hin
  obtain ⟨p, hrun, hsame, hin', hpush⟩ := run_sweepTrials (rs := List.range s.trials.toNat) hphase hfirst hlen
    (by simp [hcount]) hin
  have hp : Inv p := hs.of_run hrun
  have hphase' : p.phase = .run .sweep := hsame.phase.trans hphase
  obtain ⟨-, ⟨hsigma, -, -⟩, herrors⟩ := hp.sweep.onLevel hphase' hpush (by simp)
  have htrials : p.trialCount = s.trials := (hp.sweep.trialCount_eq hphase' (.inl hpush)).trans hsame.trials
  have hroom' : p.resq.length < p.cfg.resqDepth := by rwa [hsame.resq, hsame.cfg]
  refine ⟨{ appendRow (levelRow p) p with pos := .nextLevel, inputs := .sequencer :: rest }, levelRow p, ?_, ?_, hphase',
    hsame.level, rfl, rfl, ?_, ?_, htrials, ?_⟩
  · rw [List.length_range] at hrun
    rw [run_add 1 hrun]
    exact run_one (step_push hphase' hin' hpush hroom')
  · exact hsame.toSameSweep.trans ⟨⟨rfl, rfl, rfl, rfl, rfl, rfl, rfl, rfl⟩, rfl, rfl, rfl, rfl⟩
  · exact congrArg (· ++ [levelRow p]) hsame.resq
  · simp only [levelRow, ← hsigma, BitVec.ofNat_toNat, BitVec.setWidth_eq]
    rw [hsigma, hsame.level]
  · rw [← htrials]
    exact herrors

/-- The levels still to come in a sweep, one for each entry of m :: ms: the last of them is the last one that is at most
SIGMA_END. -/
theorem run_levels {u : Nat → Nat → Word} {z : Nat → Nat → List Word} {m : Nat} {ms : List Nat} {s : State} (hs : Inv s)
    (hphase : s.phase = .run .sweep) (hpos : s.pos = .drawWord) (hlen : ∀ m r, (z m r).length = s.gRows.toNat)
    (hcount : s.trialCount = 0) (hle : s.level + ms.length * s.sigmaStep.toNat ≤ s.sigmaEnd.toNat)
    (hgt : s.sigmaEnd.toNat < s.level + (ms.length + 1) * s.sigmaStep.toNat)
    (hroom : s.resq.length + (ms.length + 1) ≤ s.cfg.resqDepth)
    (hin : s.inputs = (m :: ms).flatMap fun m => levelTurns (u m) (z m) s.trials.toNat) :
    ∃ (t : State) (rows : List ResultRow),
      Host.Core.run core ((ms.length + 1) * (s.trials.toNat * (4 + 3 * s.gRows.toNat) + 2)) s = .next t ∧
      SameSweep s t ∧ t.phase = .idle ∧ t.busy = false ∧ t.done = true ∧ t.err = 0 ∧ t.inputs = [] ∧
      t.resq = s.resq ++ rows ∧ rows.length = ms.length + 1 ∧
      ∀ n (h : n < rows.length),
        rows[n].sigma.toNat = s.level + n * s.sigmaStep.toNat ∧ rows[n].trials = s.trials ∧
        rows[n].errors.toNat ≤ s.trials.toNat := by
  induction ms generalizing m s with
  | nil =>
    rw [List.flatMap_cons] at hin
    obtain ⟨p, row, hrun, hsame, hphase', hlevel, hin', hpos', hresq, hrow⟩ :=
      run_level hs hphase hpos (hlen m) hcount (by simp at hroom; omega) hin
    have hend : p.sigmaEnd.toNat < p.level + p.sigmaStep.toNat := by
      rw [hsame.sigmaEnd, hlevel, hsame.sigmaStep]
      simpa using hgt
    refine ⟨complete 0 { p with inputs := [], level := p.level + p.sigmaStep.toNat }, [row], ?_,
      hsame.trans ⟨⟨rfl, rfl, rfl, rfl, rfl, rfl, rfl, rfl⟩, rfl, rfl, rfl, rfl⟩, rfl, rfl, rfl, rfl, rfl, hresq, rfl,
      fun n h => ?_⟩
    · rw [List.length_nil, Nat.zero_add, Nat.one_mul, run_add 1 hrun]
      exact run_one (step_sweepEnd hphase' hin' hpos' hend)
    · obtain rfl : n = 0 := by simpa using h
      simpa using hrow
  | cons m' ms ih =>
    rw [List.flatMap_cons] at hin
    rw [List.length_cons] at hle hgt hroom
    obtain ⟨p, row, hrun, hsame, hphase', hlevel, hin', hpos', hresq, hrow⟩ :=
      run_level hs hphase hpos (hlen m) hcount (by omega) hin
    have hstep : p.level + p.sigmaStep.toNat = s.level + s.sigmaStep.toNat := by rw [hlevel, hsame.sigmaStep]
    rw [Nat.add_one_mul] at hle hgt
    rw [Nat.add_one_mul] at hgt
    let s₁ : State := beginLevel (p.level + p.sigmaStep.toNat)
      { p with inputs := (m' :: ms).flatMap fun m => levelTurns (u m) (z m) s.trials.toNat }
    have hbegin : step p = .next s₁ := step_nextLevel hphase' hin' hpos' (by rw [hstep, hsame.sigmaEnd]; omega)
    have hsame₁ : SameSweep s s₁ := hsame.trans ⟨⟨rfl, rfl, rfl, rfl, rfl, rfl, rfl, rfl⟩, rfl, rfl, rfl, rfl⟩
    have hresq₁ : s₁.resq = s.resq ++ [row] := hresq
    have hlevel₁ : s₁.level = s.level + s.sigmaStep.toNat := hstep
    obtain ⟨t, rows, hrun', hsame', hphase'', hbusy, hdone, herr, hin'', hresq', hlength, hrows⟩ :=
      ih (m := m') (s := s₁) (wholeInvariantIsKept p s₁ (hs.of_run hrun) hbegin) hphase' rfl
        (by rwa [hsame₁.gRows]) rfl (by rw [hlevel₁, hsame₁.sigmaStep, hsame₁.sigmaEnd]; omega)
        (by rw [hlevel₁, hsame₁.sigmaStep, hsame₁.sigmaEnd, Nat.add_one_mul]; omega)
        (by rw [hresq₁, hsame₁.cfg, List.length_append, List.length_singleton]; omega) (by rw [hsame₁.trials]; rfl)
    rw [hsame₁.trials, hsame₁.gRows] at hrun'
    refine ⟨t, row :: rows, ?_, hsame₁.trans hsame', hphase'', hbusy, hdone, herr, hin'', ?_, ?_, ?_⟩
    · have hsteps (a : Nat) : (ms.length + 1 + 1) * (a + 2) = a + 1 + ((ms.length + 1) * (a + 2) + 1) := by ring
      rw [List.length_cons, hsteps, run_add _ hrun, run_succ _ hbegin]
      exact hrun'
    · rw [hresq', hresq₁, List.append_assoc, List.singleton_append]
    · rw [List.length_cons, List.length_cons, hlength]
    · rintro (_ | n) h
      · simpa using hrow
      · have hrow' := hrows n (Nat.lt_of_succ_lt_succ h)
        rw [hlevel₁, hsame₁.sigmaStep, hsame₁.trials] at hrow'
        rw [Nat.add_one_mul, Nat.add_comm (n * _), ← Nat.add_assoc]
        exact hrow'

/-! ### The obligation -/

theorem sweepTurns_eq (u : Nat → Nat → Word) (z : Nat → Nat → List Word) (L T : Nat) :
    sweepTurns u z L T = .sequencer :: (List.range L).flatMap fun m => levelTurns (u m) (z m) T := rfl

/-- Settles O36: after the start check the levels, of which SIGMA_END - SIGMA_START over SIGMA_STEP and one more fit. -/
theorem sweepEmitsOneRowPerLevel : Obligations.SweepEmitsOneRowPerLevel := by
  intro s u z L hs hphase hpos ht hgood hL hroom hlen hin
  have hcheck := sweepCheck_of_not_badSweep ht hgood
  obtain ⟨-, -, hlt, hstep, -⟩ := sweepCheck_none.mp hcheck
  obtain ⟨m, ms, hlevels⟩ : ∃ m ms, List.range L = m :: ms := by
    rw [hL, List.range_succ_eq_map]
    exact ⟨_, _, rfl⟩
  have hcount : ms.length = (s.sigmaEnd.toNat - s.sigmaStart.toNat) / s.sigmaStep.toNat := by
    have := congrArg List.length hlevels
    rw [List.length_range, List.length_cons] at this
    omega
  have hle : ms.length * s.sigmaStep.toNat ≤ s.sigmaEnd.toNat - s.sigmaStart.toNat := hcount ▸ Nat.div_mul_le_self _ _
  have hgt : s.sigmaEnd.toNat - s.sigmaStart.toNat < (ms.length + 1) * s.sigmaStep.toNat := by
    rw [← Nat.div_lt_iff_lt_mul hstep, hcount]
    exact Nat.lt_succ_self _
  have hlast : s.sigmaStart.toNat + ms.length * s.sigmaStep.toNat ≤ s.sigmaEnd.toNat := by omega
  have hpast : s.sigmaEnd.toNat < s.sigmaStart.toNat + (ms.length + 1) * s.sigmaStep.toNat := by omega
  have hroom' : s.resq.length + (ms.length + 1) ≤ s.cfg.resqDepth := by rwa [hcount, ← hL]
  let s₁ : State := beginLevel s.sigmaStart.toNat
    { s with inputs := (m :: ms).flatMap fun m => levelTurns (u m) (z m) s.trials.toNat }
  rw [sweepTurns_eq, hlevels] at hin
  have hstart : step s = .next s₁ := (step_sequencer hphase hin).trans (exec_sweep_start hpos hcheck)
  have hs₁ : Inv s₁ := wholeInvariantIsKept s s₁ hs hstart
  obtain ⟨t, rows, hrun, hsame, hidle, hbusy, hdone, herr, hinputs, hresq, hlength, hrows⟩ :=
    run_levels (s := s₁) hs₁ hphase rfl hlen rfl hlast hpast hroom' rfl
  have hdraw : t.draw = .none := (hs₁.of_run hrun).run.draw_none_of_idle hidle
  refine ⟨t, rows, ?_, hidle, hbusy, hdone, herr, hinputs, hdraw, hresq, by rw [hlength, hcount, hL], hrows, hsame.gRows,
    hsame.gCols, hsame.k, hsame.grow, hsame.gValid, hsame.cwt, hsame.tableValid.trans ht, hsame.sigmaStart,
    hsame.sigmaEnd, hsame.sigmaStep, hsame.trials⟩
  rw [hL, ← hcount, Nat.add_comm 1, run_succ _ hstart]
  exact hrun

end Sys2Proof.Machine
